-- ==== Sys2Proof/Word.lean ====
section
/-!
DEFINITION. The words of the FBC: the byte, the 16-bit EEPROM address and the 64-bit command word.
Abbreviations, so that the library's lemmas about bit vectors apply as they stand.
-/

namespace Sys2Proof

/-- A byte is 8 bits (R8). Bit 0 is the least significant bit. -/
abbrev Byte := BitVec 8

/-- A 16-bit EEPROM logical address (R50 (c), R86); also the type of `ADDR2` and `LEN`. -/
abbrev Addr := BitVec 16

/-- The 64-bit command word `CW` of a packet (R80, R81). -/
abbrev CmdWord := BitVec 64

end Sys2Proof
end

