-- ==== Sys2Proof/Syntax.lean ====
section
/-!
DEFINITION. The 23 commands of the FBC (R82, R83), one constructor per row of spec/opcode_table.json, and the shape
of the payload that follows a command word (R84).
-/

namespace Sys2Proof

/-- One command. Operands are the fields of R82, in the order of the source's call signatures (R92); every field has
exactly the width its encoding gives it (R85, R86), so no term of this type is ill-formed. The payload of LOADBITMAP,
DRAWSTRING and EE_WRITESTR is no operand: it follows in the command stream (R60, R84). -/
inductive Instr where
  | nop
  | clear
  | setPixel (x y : Byte) (on : Bool)
  | invert
  | serialize
  | loadBitmap
  | flush
  | plot (x y : Byte) (on : Bool)
  | line (x1 y1 x2 y2 : Byte) (on : Bool)
  | rect (x1 y1 x2 y2 : Byte) (fill on : Bool)
  | bar (x1 y1 x2 y2 width : Byte) (on : Bool)
  | circle (cx cy r : Byte) (fill on : Bool)
  | gotoXY (col row : Byte)
  | drawChar (code : Byte)
  | drawString
  | drawLarge (code : Byte)
  | eeRead (addr : Addr)
  | eeWrite (addr : Addr) (value : Byte)
  | eeWriteStr (addr len : Addr)
  | eeReadStr (addr : Addr)
  | eeZero (first limit : Addr)
  | getStatus
  | clrErr
deriving DecidableEq, Repr

/-- How long a packet's payload is (R84, R91). -/
inductive PayloadShape where
  /-- Exactly `n` bytes, whatever their values. -/
  | bytes (n : Nat)
  /-- The bytes up to and including the first 0x00. -/
  | throughNull
deriving DecidableEq, Repr

/-- A packet: a command and its payload (R80). -/
structure Packet where
  instr : Instr
  payload : List Byte
deriving DecidableEq, Repr

end Sys2Proof
end

