-- ==== Sys2Proof/WellFormed.lean ====
section
/-!
DEFINITION. Which packets are well-formed (R84, R315). An `Instr` alone has nothing to check: every operand
has exactly the width of its field. What the host can get wrong is the payload's length, so the check is on
packets.
-/

namespace Sys2Proof

/-- The payload that follows each command (R84): LOADBITMAP 504 bytes, EE_WRITESTR `LEN` bytes, DRAWSTRING through its
first 0x00, every other command none. -/
def Instr.payloadShape : Instr → PayloadShape
  | .loadBitmap => .bytes 504
  | .drawString => .throughNull
  | .eeWriteStr _ len => .bytes len.toNat
  | .nop => .bytes 0
  | .clear => .bytes 0
  | .setPixel _ _ _ => .bytes 0
  | .invert => .bytes 0
  | .serialize => .bytes 0
  | .flush => .bytes 0
  | .plot _ _ _ => .bytes 0
  | .line _ _ _ _ _ => .bytes 0
  | .rect _ _ _ _ _ _ => .bytes 0
  | .bar _ _ _ _ _ _ => .bytes 0
  | .circle _ _ _ _ _ => .bytes 0
  | .gotoXY _ _ => .bytes 0
  | .drawChar _ => .bytes 0
  | .drawLarge _ => .bytes 0
  | .eeRead _ => .bytes 0
  | .eeWrite _ _ => .bytes 0
  | .eeReadStr _ => .bytes 0
  | .eeZero _ _ => .bytes 0
  | .getStatus => .bytes 0
  | .clrErr => .bytes 0

/-- Whether a list of bytes is exactly a payload of this shape. -/
def PayloadShape.admits : PayloadShape → List Byte → Bool
  | .bytes n, p => p.length == n
  | .throughNull, p => p.getLast? == some 0#8 && !p.dropLast.contains 0#8

/-- A well-formed packet: the payload is exactly the one its command takes (R84). A host that sends another one
misaligns every later packet (R315). -/
def Packet.wellFormed (p : Packet) : Bool := p.instr.payloadShape.admits p.payload

end Sys2Proof
end

