-- ==== Sys2Proof/Decode.lean ====
section
/-!
DEFINITION. The command encoding (spec/30_encoding.md): the fields of a command word, the decoder from bytes
to a command or a named rejection, and the encoder back.
-/

namespace Sys2Proof

/-! ## The fields of a command word (R81) -/

def cwOp (cw : CmdWord) : Byte := cw.extractLsb' 0 8
def cwOn (cw : CmdWord) : Bool := cw.getLsbD 8
def cwFill (cw : CmdWord) : Bool := cw.getLsbD 9
/-- Reserved bits 15:10. -/
def cwReservedLow (cw : CmdWord) : BitVec 6 := cw.extractLsb' 10 6
def cwA (cw : CmdWord) : Byte := cw.extractLsb' 16 8
def cwB (cw : CmdWord) : Byte := cw.extractLsb' 24 8
def cwC (cw : CmdWord) : Byte := cw.extractLsb' 32 8
def cwD (cw : CmdWord) : Byte := cw.extractLsb' 40 8
def cwE (cw : CmdWord) : Byte := cw.extractLsb' 48 8
/-- Reserved bits 63:56. -/
def cwReservedHigh (cw : CmdWord) : Byte := cw.extractLsb' 56 8
/-- `ADDR = CW[31:16] = {B, A}` (R81, R86). -/
def cwAddr (cw : CmdWord) : Addr := cw.extractLsb' 16 16
/-- `ADDR2 = LEN = CW[47:32] = {D, C}` (R81, R86). -/
def cwAddr2 (cw : CmdWord) : Addr := cw.extractLsb' 32 16

/-! ## Bytes and words (R56) -/

/-- The word whose byte `k` is the `k`-th byte of the list: least significant byte first (R56). -/
def wordOfBytes (bs : List Byte) : CmdWord :=
  bs.foldr (fun b acc => (acc <<< 8) ||| b.setWidth 64) 0#64

/-- The 8 header bytes of a command word in stream order: byte `k` is `CW[8k+7 : 8k]` (R56). -/
def bytesOfWord (cw : CmdWord) : List Byte :=
  [cw.extractLsb' 0 8, cw.extractLsb' 8 8, cw.extractLsb' 16 8, cw.extractLsb' 24 8,
    cw.extractLsb' 32 8, cw.extractLsb' 40 8, cw.extractLsb' 48 8, cw.extractLsb' 56 8]

/-- The first `n` bytes and the rest, or `none` when there are fewer. -/
def splitBytes : Nat → List Byte → Option (List Byte × List Byte)
  | 0, bs => some ([], bs)
  | _ + 1, [] => none
  | n + 1, b :: bs => (splitBytes n bs).map fun p => (b :: p.1, p.2)

/-! ## The decoder (R82, R83, R87 to R89) -/

/-- What a command word decodes to. -/
inductive Decoded where
  /-- An assigned opcode with every unused bit 0. -/
  | instr (i : Instr)
  /-- `OP` is not assigned (R88). -/
  | illegalOpcode
  /-- An assigned opcode with a bit set that it does not use (R87). -/
  | reservedBits
deriving DecidableEq, Repr

/-- Which operand fields an opcode uses: the column "fields used" of R82. -/
structure UsedFields where
  on : Bool := false
  fill : Bool := false
  a : Bool := false
  b : Bool := false
  c : Bool := false
  d : Bool := false
  e : Bool := false
deriving DecidableEq, Repr

/-- The table of R82: for an assigned opcode its used fields and the command with its operands; `none` for every
unassigned one (R83). -/
def opcodeRow (op : Byte) (cw : CmdWord) : Option (UsedFields × Instr) :=
  match op with
  | 0x00#8 => some ({}, .nop)
  | 0x01#8 => some ({}, .clear)
  | 0x02#8 => some ({ on := true, a := true, b := true }, .setPixel (cwA cw) (cwB cw) (cwOn cw))
  | 0x03#8 => some ({}, .invert)
  | 0x04#8 => some ({}, .serialize)
  | 0x05#8 => some ({}, .loadBitmap)
  | 0x06#8 => some ({}, .flush)
  | 0x10#8 => some ({ on := true, a := true, b := true }, .plot (cwA cw) (cwB cw) (cwOn cw))
  | 0x11#8 => some ({ on := true, a := true, b := true, c := true, d := true },
      .line (cwA cw) (cwB cw) (cwC cw) (cwD cw) (cwOn cw))
  | 0x12#8 => some ({ on := true, fill := true, a := true, b := true, c := true, d := true },
      .rect (cwA cw) (cwB cw) (cwC cw) (cwD cw) (cwFill cw) (cwOn cw))
  | 0x13#8 => some ({ on := true, a := true, b := true, c := true, d := true, e := true },
      .bar (cwA cw) (cwB cw) (cwC cw) (cwD cw) (cwE cw) (cwOn cw))
  | 0x14#8 => some ({ on := true, fill := true, a := true, b := true, c := true },
      .circle (cwA cw) (cwB cw) (cwC cw) (cwFill cw) (cwOn cw))
  | 0x20#8 => some ({ a := true, b := true }, .gotoXY (cwA cw) (cwB cw))
  | 0x21#8 => some ({ a := true }, .drawChar (cwA cw))
  | 0x22#8 => some ({}, .drawString)
  | 0x23#8 => some ({ a := true }, .drawLarge (cwA cw))
  | 0x30#8 => some ({ a := true, b := true }, .eeRead (cwAddr cw))
  | 0x31#8 => some ({ a := true, b := true, c := true }, .eeWrite (cwAddr cw) (cwC cw))
  | 0x32#8 => some ({ a := true, b := true, c := true, d := true }, .eeWriteStr (cwAddr cw) (cwAddr2 cw))
  | 0x33#8 => some ({ a := true, b := true }, .eeReadStr (cwAddr cw))
  | 0x34#8 => some ({ a := true, b := true, c := true, d := true }, .eeZero (cwAddr cw) (cwAddr2 cw))
  | 0x3E#8 => some ({}, .getStatus)
  | 0x3F#8 => some ({}, .clrErr)
  | _ => none

/-- Whether every bit of `CW[63:8]` outside the used fields is 0 (R87). -/
def unusedClear (u : UsedFields) (cw : CmdWord) : Bool :=
  cwReservedLow cw == 0#6 && cwReservedHigh cw == 0#8 && (u.on || !cwOn cw) && (u.fill || !cwFill cw) &&
    (u.a || cwA cw == 0#8) && (u.b || cwB cw == 0#8) && (u.c || cwC cw == 0#8) && (u.d || cwD cw == 0#8) &&
    (u.e || cwE cw == 0#8)

/-- Decode a command word in the order of R89: first the opcode (R88), then the reserved bits (R87). -/
def decodeWord (cw : CmdWord) : Decoded :=
  match opcodeRow (cwOp cw) cw with
  | none => .illegalOpcode
  | some (u, i) => if unusedClear u cw then .instr i else .reservedBits

/-- Decode the packet header at the head of a byte list; the second component is what follows the header. `none` when
fewer than 8 bytes stand there: no command word yet (R80). -/
def decode (bs : List Byte) : Option (Decoded × List Byte) :=
  (splitBytes 8 bs).map fun p => (decodeWord (wordOfBytes p.1), p.2)

/-- The payload length that follows from a command word, assigned or not, well-formed or not (R84, R91). -/
def cwPayload (cw : CmdWord) : PayloadShape :=
  match cwOp cw with
  | 0x05#8 => .bytes 504
  | 0x22#8 => .throughNull
  | 0x32#8 => .bytes (cwAddr2 cw).toNat
  | _ => .bytes 0

/-! ## The encoder -/

/-- The bits of a field, moved to the position of its lowest bit. -/
def placeField {n : Nat} (position : Nat) (v : BitVec n) : CmdWord := v.setWidth 64 <<< position

/-- A command word from its fields, the reserved bits 0 (R81). -/
def packWord (op : Byte) (on fill : Bool) (a b c d e : Byte) : CmdWord :=
  placeField 0 op ||| placeField 8 (BitVec.ofBool on) ||| placeField 9 (BitVec.ofBool fill) ||| placeField 16 a |||
    placeField 24 b ||| placeField 32 c ||| placeField 40 d ||| placeField 48 e

/-- The low byte of a 16-bit value, which stands in the field of the lower bits: `{B, A}`, `{D, C}` (R86). -/
def lowByte (v : Addr) : Byte := v.extractLsb' 0 8

/-- The high byte of a 16-bit value. -/
def highByte (v : Addr) : Byte := v.extractLsb' 8 8

/-- The command word of a command (R82). -/
def encodeWord : Instr → CmdWord
  | .nop => packWord 0x00 false false 0 0 0 0 0
  | .clear => packWord 0x01 false false 0 0 0 0 0
  | .setPixel x y on => packWord 0x02 on false x y 0 0 0
  | .invert => packWord 0x03 false false 0 0 0 0 0
  | .serialize => packWord 0x04 false false 0 0 0 0 0
  | .loadBitmap => packWord 0x05 false false 0 0 0 0 0
  | .flush => packWord 0x06 false false 0 0 0 0 0
  | .plot x y on => packWord 0x10 on false x y 0 0 0
  | .line x1 y1 x2 y2 on => packWord 0x11 on false x1 y1 x2 y2 0
  | .rect x1 y1 x2 y2 fill on => packWord 0x12 on fill x1 y1 x2 y2 0
  | .bar x1 y1 x2 y2 width on => packWord 0x13 on false x1 y1 x2 y2 width
  | .circle cx cy r fill on => packWord 0x14 on fill cx cy r 0 0
  | .gotoXY col row => packWord 0x20 false false col row 0 0 0
  | .drawChar code => packWord 0x21 false false code 0 0 0 0
  | .drawString => packWord 0x22 false false 0 0 0 0 0
  | .drawLarge code => packWord 0x23 false false code 0 0 0 0
  | .eeRead addr => packWord 0x30 false false (lowByte addr) (highByte addr) 0 0 0
  | .eeWrite addr value => packWord 0x31 false false (lowByte addr) (highByte addr) value 0 0
  | .eeWriteStr addr len => packWord 0x32 false false (lowByte addr) (highByte addr) (lowByte len) (highByte len) 0
  | .eeReadStr addr => packWord 0x33 false false (lowByte addr) (highByte addr) 0 0 0
  | .eeZero first limit => packWord 0x34 false false (lowByte first) (highByte first) (lowByte limit) (highByte limit) 0
  | .getStatus => packWord 0x3E false false 0 0 0 0 0
  | .clrErr => packWord 0x3F false false 0 0 0 0 0

/-- The 8 header bytes of a command, in stream order (R56, R80). -/
def encode (i : Instr) : List Byte := bytesOfWord (encodeWord i)

/-- A whole packet in stream order (R80). -/
def encodePacket (p : Packet) : List Byte := encode p.instr ++ p.payload

/-! ## The host's numbering of an instruction's bits -/

/-- The 8 header bytes of the packet whose command word has the low `nbits` bits of `w` and zeros above: the
FBC stores the least significant byte first (R56). -/
def tableBytes (nbits w : Nat) : List Byte :=
  bytesOfWord (BitVec.ofNat 64 (w % 2 ^ nbits))

/-- The command the decoder reads from the command word `w` of `nbits` bits. -/
def decodeTableWord (nbits w : Nat) : Option Instr :=
  match decode (tableBytes nbits w) with
  | some (.instr i, _) => some i
  | _ => none

end Sys2Proof
end

