-- ==== Sys2Proof/Config.lean ====
section
/-!
DEFINITION. The parameters of R7 as plain data, the free values the spec leaves open, and the parameter
values a machine has right after power-on. The fixed parameters of R6 (84 columns, 48 rows, 6 pages, 504
bytes) stand as numerals where the spec's pseudocode has them.

A free value is a constant without a body, applied to a counter of draws (`State.draws`) or to a table
position: nothing in Lean can compute it or prove a value of it.
-/

namespace Sys2Proof

/-- `VRAM_INIT` (R7, R22, D8): the byte `i` of the framebuffer after the reset that is draw `n`. Entry 1. -/
opaque Config.vramInit (n i : Nat) : Byte

/-- The EEPROM byte whose write transaction RESET cut (R312, U11), at draw `n`. Entry 8. -/
opaque Config.tornByte (n : Nat) : Byte

/-- The byte `BusRx` returns when no device took part in the transaction (R224, U14), at draw `n`. Entry 7. -/
opaque Config.floatingByte (n : Nat) : Byte

/-- Byte `k` (0 .. 4) of the OPEN table entry `GLYPH5(code)` (R30, D20). Entry 3. -/
opaque Config.glyph5 (code k : Nat) : Byte

/-- Byte `k` (0 .. 19) of the OPEN table entry `LARGE(s)`, `s` by its position 0 .. 12 in the alphabet (R31,
D21). Entry 3. -/
opaque Config.large (symbol k : Nat) : Byte

/-- The OPEN duration `T_SETTLE` (R7, R225, D27). Entry 3. -/
opaque Config.tSettle : Nat

/-- `BAD_GLYPH_POLICY` (R7, R186, D23). -/
inductive BadGlyphPolicy where
  /-- The source's production build: a blank cell is drawn. -/
  | blank
  /-- The source's test build: nothing but `STATUS` changes and a fault is recorded. -/
  | fault
deriving DecidableEq, Repr

/-- The open parameters of R7, as plain data. `VRAM_INIT` is not among them: it is drawn at every reset. -/
structure Params where
  /-- `GLYPH5`: 96 entries of 5 bytes, the entry of code `c` at positions `(c − 0x20) × 5 ..` (R30). -/
  glyph5 : Vector Byte 480
  /-- `LARGE`: 13 entries of 20 bytes, symbols in the order `-`, `.`, space, `0` .. `9` (R31). -/
  large : Vector Byte 260
  /-- `BANK_MASK` has exactly one bit set, not bit 0: it is bit `bankBit + 1` (R7, D25). -/
  bankBit : Fin 7
  /-- `T_SETTLE` (R7, R225). -/
  tSettle : Nat
  /-- `EE_ERASED`: what a never-written EEPROM cell returns (R7, R72). -/
  eeErased : Byte
  /-- `BAD_GLYPH_POLICY` (R7, R186). -/
  badGlyph : BadGlyphPolicy
deriving DecidableEq, Repr

/-- The parameter values of the machine right after power-on: R7's default where it gives one (`BANK_MASK` 0x08,
`EE_ERASED` 0xFF, policy `blank`), a free value where it gives none. Entries 2 and 3. -/
def Params.initial : Params where
  glyph5 := Vector.ofFn fun i => Config.glyph5 (0x20 + i.val / 5) (i.val % 5)
  large := Vector.ofFn fun i => Config.large (i.val / 20) (i.val % 20)
  bankBit := 2
  tSettle := Config.tSettle
  eeErased := 0xFF#8
  badGlyph := .blank

end Sys2Proof
end

