-- ==== Sys2Proof/Machine/State.lean ====
section
/-!
DEFINITION. The state of the machine as plain data (spec/10_state.md, R36), the reasons a step can stop, and the state
right after power-on reset.
-/

namespace Sys2Proof.Machine

/-! ## The parser (R27) -/

/-- How far the command being executed has come, when it could not complete in one go. -/
inductive Progress where
  /-- LOADBITMAP has written `k` bytes and waits for byte `k` (R114). -/
  | loadBitmap (k : Nat)
  /-- DRAWSTRING waits for its next character or its terminator (R184). -/
  | drawString
  /-- EE_WRITESTR waits for a payload byte: the next address, how many bytes are still to come, and whether a 0x00 has
  stopped the text (R228). -/
  | eeWriteStr (next : Addr) (left : Nat) (stopped : Bool)
  /-- EE_READSTR goes on reading at this address (R229). -/
  | eeReadStr (next : Addr)
  /-- A rejected packet of which `left` payload bytes are still to be discarded (R87). -/
  | discard (left : Nat)
  /-- A rejected DRAWSTRING whose payload is discarded through its first 0x00 (R87). -/
  | discardThroughNull
  /-- A port event of the command does not complete (R232), or RESET has come before it (R310). -/
  | port
deriving DecidableEq, Repr

/-- The parser state of R27. -/
inductive Parser where
  /-- At a packet boundary. -/
  | idle
  /-- `Header(k, bytes)`: the header bytes received so far, `k = bytes.length`, `1 ≤ k ≤ 7`. -/
  | header (bytes : List Byte)
  /-- `Exec(cw, progress)`. -/
  | exec (cw : CmdWord) (p : Progress)
deriving DecidableEq, Repr

/-! ## The two ports (R292) -/

/-- How the FBC answers the byte it receives (R220). -/
inductive Ack where
  | ack
  | nack
deriving DecidableEq, Repr

/-- The events of the display link (R115) and of the EEPROM bus (R220). -/
inductive PortEvent where
  /-- `PanelSelect(1)`, `PanelSelect(0)`: chip-select enabled, disabled. -/
  | panelSelect (enabled : Bool)
  /-- `PanelTx(b)`: one byte with mode-select at data. -/
  | panelTx (b : Byte)
  | busStart
  | busRestart
  | busStop
  | busTx (b : Byte)
  /-- `BusRx(ack)`: the FBC's answer, and the byte the device sent; `none` while the event has not completed. -/
  | busRx (answer : Ack) (reply : Option Byte)
  /-- `Settle()`, which waits for `T_SETTLE` (R225). -/
  | settle (duration : Nat)
deriving DecidableEq, Repr

/-- Which of the two ports. -/
inductive Port where
  | panelLink
  | eepromBus
deriving DecidableEq, Repr

/-- The position of the EEPROM bus (R33): no transaction, or one of which `issued` events have been driven. -/
inductive BusPosition where
  | idle
  | reading (a : Addr) (issued : Nat)
  | writing (a : Addr) (d : Byte) (issued : Nat)
deriving DecidableEq, Repr

/-- What the surroundings have in store for the coming port events: the model's own environment field, entry 6. -/
inductive PortPlan where
  /-- Every event completes. -/
  | free
  /-- `n` more bus events complete and the one after them never does (R232). The display link never holds
  (R115). -/
  | stuckAfter (n : Nat)
  /-- `n` more events of either port complete; RESET comes before the one after them (R310, R312). -/
  | resetAfter (n : Nat)
deriving DecidableEq, Repr

/-- Who answers on the EEPROM bus: the model's own environment field, entry 7. -/
inductive Device where
  /-- The device of the contract of R72. -/
  | present
  /-- No device takes part: nothing is stored, and a read returns whatever `BusRx` returns (R224). -/
  | silent
deriving DecidableEq, Repr

/-! ## Memory -/

/-- The EEPROM's content: the cells that do not read as `EE_ERASED`, addresses strictly rising. -/
abbrev Memory := List Host.Cell

/-- The framebuffer's 504 bytes (R21). -/
abbrev Vram := Vector Byte 504

/-! ## The reasons a step can stop -/

/-- Why the machine stops with a fault. -/
inductive Fault where
  /-- Raised by `step` alone, when the parser field holds a value R27 does not have (a header of no or of
  more than 7 bytes, or a wait for payload that is complete). No run reaches such a state. Safe: the
  hardware has no such state. -/
  | badParser
deriving DecidableEq, Repr

/-- Why a command has no meaning here. -/
inductive Refusal where
  /-- Answered by `exec` for a command that is not modelled; no command is. Safe: nothing is said of such a
  command. -/
  | notModelled (mnemonic : String)
deriving DecidableEq, Repr

/-! ## The state -/

/-- The machine's state: the FBC's own (R36), its parameters (R7), and what is outside it but read or written by its
rules (R35). -/
structure State where
  /-- `VRAM[0 .. 503]` (R21). -/
  vram : Vram
  /-- `cur.col`, 0 .. 83 (R23). -/
  curCol : Nat
  /-- `cur.row`, a page number 0 .. 5 (R23). -/
  curRow : Nat
  /-- `STATUS` (R28). -/
  status : Byte
  /-- The parser (R27). -/
  parser : Parser
  /-- The EEPROM bus position (R33). -/
  bus : BusPosition
  /-- The display link's chip-select (R33, R115). -/
  chipSelect : Bool
  /-- The command stream: bytes sent and not yet consumed, oldest first (R34). -/
  cmd : List Byte
  /-- The response stream: bytes produced and not yet taken, oldest first (R34). -/
  rsp : List Byte
  /-- The fault mark of R287. -/
  faultMark : Bool
  /-- The tables and parameters of R7, R30, R31; no step changes them. -/
  params : Params
  /-- `EE`, the external device's content (R35, R72). -/
  ee : Memory
  /-- The panel image: the last 504-byte sequence the display link delivered (R35). -/
  panel : Option Vram
  /-- The traffic of both ports, oldest first (R67, R292): a record of an output, entry 10. -/
  ports : List PortEvent
  /-- What the surroundings have in store for the coming port events, entry 6. -/
  portPlan : PortPlan
  /-- Who answers on the EEPROM bus, entry 7. -/
  device : Device
  /-- Whether the EEPROM bus is enabled and powered (R231, R313): the host's and the platform's doing, which no
  step changes, entry 22. -/
  busEnabled : Bool
  /-- The RESET input (R310): asserted and not yet served, entry 11. -/
  resetIn : Bool
  /-- The model's counter of free values drawn so far, entry 14. -/
  draws : Nat
deriving DecidableEq, Repr

/-- The framebuffer after the reset that is draw `n`: unspecified bytes (R22). -/
@[irreducible] def vramUnspecified (n : Nat) : Vram := Vector.ofFn fun i => Config.vramInit n i.val

/-- The machine right after power-on reset (R311), its surroundings quiet: a device never written (entry
12), a bus that is enabled and works (entries 6, 22), nothing sent and nothing delivered yet. -/
def State.reset : State where
  vram := vramUnspecified 0
  curCol := 0
  curRow := 0
  status := 0x00#8
  parser := .idle
  bus := .idle
  chipSelect := false
  cmd := []
  rsp := []
  faultMark := false
  params := Params.initial
  ee := []
  panel := none
  ports := []
  portPlan := .free
  device := .present
  busEnabled := true
  resetIn := false
  draws := 1

/-! ## Named updates, one per group of fields a command can write -/

def State.setVram (v : Vram) (s : State) : State := { s with vram := v }
def State.setCursor (col row : Nat) (s : State) : State := { s with curCol := col, curRow := row }
def State.setStatus (b : Byte) (s : State) : State := { s with status := b }
def State.setParser (p : Parser) (s : State) : State := { s with parser := p }
def State.setBus (b : BusPosition) (s : State) : State := { s with bus := b }
def State.setChipSelect (b : Bool) (s : State) : State := { s with chipSelect := b }
def State.setCmd (bs : List Byte) (s : State) : State := { s with cmd := bs }
def State.setRsp (bs : List Byte) (s : State) : State := { s with rsp := bs }
def State.setFaultMark (b : Bool) (s : State) : State := { s with faultMark := b }
def State.setEe (m : Memory) (s : State) : State := { s with ee := m }
def State.setPanel (v : Vram) (s : State) : State := { s with panel := some v }
def State.setPorts (es : List PortEvent) (s : State) : State := { s with ports := es }
def State.setPortPlan (p : PortPlan) (s : State) : State := { s with portPlan := p }
def State.setBusEnabled (b : Bool) (s : State) : State := { s with busEnabled := b }
def State.setResetIn (b : Bool) (s : State) : State := { s with resetIn := b }
def State.setDraws (n : Nat) (s : State) : State := { s with draws := n }

end Sys2Proof.Machine
end

