-- ==== Sys2Proof/Machine/Flags.lean ====
section
/-!
DEFINITION. The fields of `STATUS` (R28) and the codes of the command errors (R282). The FBC has no other flag (R29).
-/

namespace Sys2Proof.Machine

/-- The command errors of R282. -/
inductive CmdError where
  | illegalOpcode
  | reservedBits
  | badGlyph
deriving DecidableEq, Repr

/-- The code of an error (R282). -/
def errorCode : CmdError → BitVec 4
  | .illegalOpcode => 1#4
  | .reservedBits => 2#4
  | .badGlyph => 3#4

/-- `STATUS.ERR`, bit 0 (R28). -/
def statusErr (st : Byte) : Bool := st.getLsbD 0

/-- The reserved bits 3:1 of `STATUS` (R28). -/
def statusReserved (st : Byte) : BitVec 3 := st.extractLsb' 1 3

/-- `STATUS.ERRCODE`, bits 7:4 (R28). -/
def statusCode (st : Byte) : BitVec 4 := st.extractLsb' 4 4

/-- `STATUS` after `raise CmdError(e)` (R281): the first error since the last clear is kept. -/
def statusRaise (e : CmdError) (st : Byte) : Byte :=
  if statusErr st then st else errorCode e ++ statusReserved st ++ 1#1

/-- `STATUS` with no error (R28, R262). -/
def statusClear : Byte := 0x00#8

/-- The legal values of `STATUS` (R28): no error with code 0, or an error with code 1 .. 3; the reserved bits 0. -/
def statusLegal (st : Byte) : Bool :=
  statusReserved st == 0#3 &&
    (if statusErr st then statusCode st == 1#4 || statusCode st == 2#4 || statusCode st == 3#4
      else statusCode st == 0#4)

end Sys2Proof.Machine
end

