-- ==== Sys2Proof/Machine/Operands.lean ====
section
/-!
DEFINITION. The operand forms of the commands (R85, R86): unsigned fields taken as they stand.
-/

namespace Sys2Proof.Machine

/-- A coordinate, radius or width operand: `zext` of its byte, as a mathematical integer, 0 .. 255 (R9, R85). -/
def coord (b : Byte) : Int := (b.toNat : Int)

/-- A cursor operand: `zext` of its byte (R85, R181). -/
def cursorOperand (b : Byte) : Nat := b.toNat

/-- A length operand: the 16-bit `LEN`, 0 .. 65535 (R85, R86). -/
def lengthOperand (len : Addr) : Nat := len.toNat

/-- How many addresses the range `[first, limit)` of EE_ZERO holds: none when `first ≥ limit` (R230, D30). -/
def rangeLength (first limit : Addr) : Nat := limit.toNat - first.toNat

/-- The address after `a`: modulo 2^16 (R64). -/
def nextAddr (a : Addr) : Addr := a + 1#16

/-- A register value sent as one response byte (R261). -/
def byteOf (n : Nat) : Byte := BitVec.ofNat 8 n

end Sys2Proof.Machine
end

