-- ==== Sys2Proof/Machine/Ops.lean ====
section
/-!
DEFINITION. The named operations the commands are made of: the framebuffer's bytes and pixels, the streams,
the command error (the FBC's only exception) and its clearing, the two ports, the EEPROM transactions,
RESET.
-/

namespace Sys2Proof.Machine

/-! ## VRAM bytes (R10, R59) -/

/-- `MemRead(i, 1)`. The FBC never reads an index of 504 or more; there the function is 0. -/
def vramRead (v : Vram) (i : Nat) : Byte := v[i]?.getD 0#8

/-- `MemWrite(i, 1, b)`. The FBC never writes an index of 504 or more; there nothing changes. -/
def vramWrite (i : Nat) (b : Byte) (v : Vram) : Vram := v.setIfInBounds i b

/-! ## Pixels (R51 to R54) -/

/-- Whether `(x, y)` is in the pixel space (R50 (a)). -/
def onScreen (x y : Int) : Bool := decide (0 ≤ x ∧ x < 84 ∧ 0 ≤ y ∧ y < 48)

/-- The index of the byte that holds pixel `(x, y)` (R52). -/
def pixIndex (x y : Int) : Nat := (y.toNat / 8) * 84 + x.toNat

/-- The bit of that byte (R52): bit 0 is the top pixel of the page. -/
def pixBit (y : Int) : Nat := y.toNat % 8

/-- `PixRead(x, y)` for a pixel on the screen (R54). -/
def pixRead (v : Vram) (x y : Int) : Bool := (vramRead v (pixIndex x y)).getLsbD (pixBit y)

/-- `Pix(x, y) <- on` (R53): one bit changes when the pixel is on the screen, nothing otherwise. -/
def pix (x y : Int) (on : Bool) (v : Vram) : Vram :=
  if onScreen x y then
    let old := vramRead v (pixIndex x y)
    let mask := 1#8 <<< pixBit y
    vramWrite (pixIndex x y) (if on then old ||| mask else old &&& ~~~mask) v
  else v

/-! ## Glyph columns (R180) -/

/-- `PutCol(p, c, b)`: the whole byte of column `c` of page `p`, nothing off the screen. -/
def putCol (p c : Nat) (b : Byte) (v : Vram) : Vram :=
  if p < 6 ∧ c < 84 then vramWrite (p * 84 + c) b v else v

/-- A run of columns of page `p` from column `c` on, left to right. -/
def putCols (p : Nat) : Nat → List Byte → Vram → Vram
  | _, [], v => v
  | c, b :: bs, v => putCols p (c + 1) bs (putCol p c b v)

/-! ## Memory: the EEPROM's content (R35, R50 (c), R72) -/

/-- The byte at address `a`: an unlisted cell was never written and reads as `EE_ERASED` (R72). -/
def Memory.read (erased : Byte) : Memory → Nat → Byte
  | [], _ => erased
  | (k, v) :: m, a => if k = a then v else Memory.read erased m a

/-- Write a byte, keeping the canonical form: a cell that reads as `EE_ERASED` is not listed. -/
def Memory.write (erased : Byte) : Memory → Nat → Byte → Memory
  | [], a, b => if b = erased then [] else [(a, b)]
  | (k, v) :: m, a, b =>
    if k < a then (k, v) :: Memory.write erased m a b
    else if k = a then (if b = erased then m else (a, b) :: m)
    else (if b = erased then (k, v) :: m else (a, b) :: (k, v) :: m)

/-- The canonical form of the cells from address `lo` on. -/
def Memory.wfFrom (erased : Byte) : Nat → Memory → Bool
  | _, [] => true
  | lo, (k, v) :: m => decide (lo ≤ k ∧ k < 65536) && v != erased && Memory.wfFrom erased (k + 1) m

/-- The canonical form: addresses strictly rising and below 2^16, no cell that reads as an unlisted one does. -/
def Memory.wf (erased : Byte) (m : Memory) : Bool := Memory.wfFrom erased 0 m

/-- `EE[a]`. -/
def State.eeByte (a : Addr) (s : State) : Byte := Memory.read s.params.eeErased s.ee a.toNat

/-- `EE[a] <- d` (R72). -/
def State.eeStore (a : Addr) (d : Byte) (s : State) : State :=
  s.setEe (Memory.write s.params.eeErased s.ee a.toNat d)

/-! ## The streams (R60, R61) -/

/-- `Respond(b)` for each byte of a list: appended to the tail (R61). It never holds. -/
def State.respond (bs : List Byte) (s : State) : State := s.setRsp (s.rsp ++ bs)

/-- The FBC stops in the middle of command `cw` (R27, R60). -/
def State.hold (cw : CmdWord) (p : Progress) (s : State) : State := s.setParser (.exec cw p)

/-! ## The command error: the FBC's one exception (R280, R281, R285), and the return from it (R286) -/

/-- `raise CmdError(e)` (R281): nothing but `STATUS` is saved, no mode changes, control goes nowhere (R285). -/
def State.raise (e : CmdError) (s : State) : State := s.setStatus (statusRaise e s.status)

/-- The only way but RESET to clear `ERR` (R262, R286). -/
def State.clearError (s : State) : State := s.setStatus statusClear

/-! ## The ports (R67, R115, R220, R292) -/

/-- Port events happen in the order driven (R67). -/
def State.logPorts (es : List PortEvent) (s : State) : State := s.setPorts (s.ports ++ es)

/-- An event that has been driven and has not completed: nothing was received yet. -/
def pendingEvent : PortEvent → PortEvent
  | .busRx answer _ => .busRx answer none
  | .panelSelect enabled => .panelSelect enabled
  | .panelTx b => .panelTx b
  | .busStart => .busStart
  | .busRestart => .busRestart
  | .busStop => .busStop
  | .busTx b => .busTx b
  | .settle duration => .settle duration

/-- The events of a run of which `n` complete and the next is driven and never completes (R232). -/
def stuckEvents (n : Nat) (es : List PortEvent) : List PortEvent :=
  es.take n ++ ((es.drop n).take 1).map pendingEvent

/-- Drive the events of one run on a port that works. The answer's second component is `none` when all
completed; otherwise it is how many were driven before the run stopped, because the bus got stuck (R232) or
because RESET came (R310). Entries 6 and 13. -/
def State.driveEnabled (port : Port) (es : List PortEvent) (s : State) : State × Option Nat :=
  match s.portPlan, port with
  | .free, _ => (s.logPorts es, none)
  | .stuckAfter _, .panelLink => (s.logPorts es, none)
  | .stuckAfter n, .eepromBus =>
    if es.length ≤ n then ((s.logPorts es).setPortPlan (.stuckAfter (n - es.length)), none)
    else ((s.logPorts (stuckEvents n es)).setPortPlan (.stuckAfter 0), some (n + 1))
  | .resetAfter n, _ =>
    if es.length ≤ n then ((s.logPorts es).setPortPlan (.resetAfter (n - es.length)), none)
    else (((s.logPorts (es.take n)).setPortPlan .free).setResetIn true, some n)

/-- Drive the events of one run on the EEPROM bus while it is not enabled: the first event is driven and never
completes (R231, R232), unless RESET comes before it (R310). -/
def State.driveDisabled (es : List PortEvent) (s : State) : State × Option Nat :=
  match s.portPlan with
  | .resetAfter 0 => ((s.setPortPlan .free).setResetIn true, some 0)
  | .resetAfter (_ + 1) => (s.logPorts (stuckEvents 0 es), some 1)
  | .free => (s.logPorts (stuckEvents 0 es), some 1)
  | .stuckAfter _ => (s.logPorts (stuckEvents 0 es), some 1)

/-- Drive the events of one run on a port; the answer is the one of `State.driveEnabled`. Only the EEPROM bus
can be one that is not enabled (R231). -/
def State.drive (port : Port) (es : List PortEvent) (s : State) : State × Option Nat :=
  match port, s.busEnabled with
  | .eepromBus, false => s.driveDisabled es
  | .eepromBus, true => s.driveEnabled .eepromBus es
  | .panelLink, _ => s.driveEnabled .panelLink es

/-! ## EEPROM transactions (R221 to R225) -/

/-- `BANK_MASK` (R7): exactly one bit set, not bit 0. -/
def bankMask (p : Params) : Byte := 1#8 <<< (p.bankBit.val + 1)

/-- `Sel(a)` (R221). -/
def selector (p : Params) (a : Addr) : Byte :=
  0xA2#8 ||| (if 0x8000 ≤ a.toNat then bankMask p else 0x00#8)

/-- The events of `EeRead(a)` when the device sends `d` (R222). The acknowledge bits of `BusTx` are ignored (R224). -/
def readEvents (p : Params) (a : Addr) (d : Byte) : List PortEvent :=
  [.busStart, .busTx (selector p a), .busTx (highByte a), .busTx (lowByte a), .busRestart,
    .busTx (selector p a ||| 0x01#8), .busRx .nack (some d), .busStop, .settle p.tSettle]

/-- The events of `EeWrite(a, d)` (R223). -/
def writeEvents (p : Params) (a : Addr) (d : Byte) : List PortEvent :=
  [.busStart, .busTx (selector p a), .busTx (highByte a), .busTx (lowByte a), .busTx d, .busStop, .settle p.tSettle]

/-- The byte `BusRx` returns: `EE[a]` by the device's contract (R72), a free value when no device took part (R224). -/
def State.busReply (a : Addr) (s : State) : Byte :=
  match s.device with
  | .present => s.eeByte a
  | .silent => Config.floatingByte s.draws

/-- The counter of free values advances when one was drawn. -/
def State.countReply (s : State) : State :=
  match s.device with
  | .present => s
  | .silent => s.setDraws (s.draws + 1)

/-- `EeRead(a)` (R222): the byte read, or `none` when the transaction did not complete. -/
def State.eeRead (a : Addr) (s : State) : State × Option Byte :=
  match s.countReply.drive .eepromBus (readEvents s.params a (s.busReply a)) with
  | (s', none) => (s', some (s.busReply a))
  | (s', some n) => (s'.setBus (if n = 0 then .idle else .reading a n), none)

/-- What the device makes of a completed write transaction: it stores the byte (R72); where no device takes
part nothing is stored (entry 7). -/
def State.deviceStore (a : Addr) (d : Byte) (s : State) : State :=
  s.setEe (match s.device with
    | .present => (s.eeStore a d).ee
    | .silent => s.ee)

/-- `EeWrite(a, d)` (R223): whether the transaction completed. The device has the byte once the settle has
passed (R72). -/
def State.eeWrite (a : Addr) (d : Byte) (s : State) : State × Bool :=
  match s.drive .eepromBus (writeEvents s.params a d) with
  | (s', none) => (s'.deviceStore a d, true)
  | (s', some n) => (s'.setBus (if n = 0 then .idle else .writing a d n), false)

/-! ## RESET (R310 to R312) -/

/-- The device's content after RESET: unchanged, but for the byte whose write transaction RESET cut, which
is any value (R311, R312). -/
def State.eeAfterReset (s : State) : Memory :=
  match s.bus with
  | .writing a _ _ => Memory.write s.params.eeErased s.ee a.toNat (Config.tornByte s.draws)
  | .idle => s.ee
  | .reading _ _ => s.ee

/-- The state after RESET (R311): VRAM unspecified, the cursor and `STATUS` 0, the parser idle, both streams
empty, both ports inactive; the tables and what is outside the FBC unchanged (R35). The RESET input is
served. DESIGN CHOICE, entry 21: the ports become inactive with no event of their own, so the record
`ports` gets no `PanelSelect(0)`, `BusStop` or `Settle` for the frame or transaction that RESET cut. -/
def State.takeReset (s : State) : State :=
  { s with
    vram := vramUnspecified s.draws
    curCol := 0
    curRow := 0
    status := statusClear
    parser := .idle
    bus := .idle
    chipSelect := false
    cmd := []
    rsp := []
    ee := s.eeAfterReset
    resetIn := false
    draws := s.draws + 1 }

end Sys2Proof.Machine
end

