-- ==== Sys2Proof/Machine/Control.lean ====
section
/-!
DEFINITION. The control commands (spec/44_control.md): NOP, GETSTATUS, CLRERR.
-/

namespace Sys2Proof.Machine

/-- NOP (R260): nothing. -/
def execNop (s : State) : Host.Outcome State Fault Refusal := .next s

/-- GETSTATUS (R261): `STATUS`, `cur.col`, `cur.row`. Reading clears nothing. -/
def execGetStatus (s : State) : Host.Outcome State Fault Refusal :=
  .next (s.respond [s.status, byteOf s.curCol, byteOf s.curRow])

/-- CLRERR (R262). -/
def execClrErr (s : State) : Host.Outcome State Fault Refusal := .next s.clearError

end Sys2Proof.Machine
end

