-- ==== Sys2Proof/Machine/Eeprom.lean ====
section
/-!
DEFINITION. The EEPROM commands (spec/43_eeprom.md): EE_READ, EE_WRITE, EE_WRITESTR, EE_READSTR, EE_ZERO. Where a bus
transaction does not complete the FBC holds in the middle of its command (R232).
-/

namespace Sys2Proof.Machine

/-- EE_READ (R226). -/
def execEeRead (addr : Addr) (s : State) : Host.Outcome State Fault Refusal :=
  match s.eeRead addr with
  | (s', some d) => .next (s'.respond [d])
  | (s', none) => .next (s'.hold (encodeWord (.eeRead addr)) .port)

/-- A command whose last act is one write transaction. -/
def eeWriteLast (cw : CmdWord) (a : Addr) (d : Byte) (s : State) : State :=
  match s.eeWrite a d with
  | (s', true) => s'
  | (s', false) => s'.hold cw .port

/-- EE_WRITE (R227). -/
def execEeWrite (addr : Addr) (value : Byte) (s : State) : Host.Outcome State Fault Refusal :=
  .next (eeWriteLast (encodeWord (.eeWrite addr value)) addr value s)

/-- EE_WRITESTR with `left` payload bytes still to come, `a` the next address, `stopped` once a 0x00 was
seen (R228). Every payload byte is consumed; then the trailing terminator is written. -/
def eeWriteStrFrom (cw : CmdWord) : Nat → Addr → Bool → State → State
  | 0, a, _, s => eeWriteLast cw a 0x00#8 s
  | left + 1, a, stopped, s =>
    match s.cmd with
    | [] => s.hold cw (.eeWriteStr a (left + 1) stopped)
    | b :: rest =>
      if stopped then eeWriteStrFrom cw left a true (s.setCmd rest)
      else if b = 0x00#8 then eeWriteStrFrom cw left a true (s.setCmd rest)
      else
        match (s.setCmd rest).eeWrite a b with
        | (s', true) => eeWriteStrFrom cw left (nextAddr a) false s'
        | (s', false) => s'.hold cw .port

/-- EE_WRITESTR (R228). -/
def execEeWriteStr (addr len : Addr) (s : State) : Host.Outcome State Fault Refusal :=
  .next (eeWriteStrFrom (encodeWord (.eeWriteStr addr len)) (lengthOperand len) addr false s)

/-- EE_READSTR from address `a` (R229). The first argument bounds the transactions of one step of the model;
the command goes on in the next step where it has not ended (entry 5). -/
def eeReadStrFrom (cw : CmdWord) : Nat → Addr → State → State
  | 0, a, s => s.hold cw (.eeReadStr a)
  | n + 1, a, s =>
    match s.eeRead a with
    | (s', none) => s'.hold cw .port
    | (s', some d) =>
      if d = 0x00#8 ∨ d = 0xFF#8 then s'.respond [0x00#8]
      else eeReadStrFrom cw n (nextAddr a) (s'.respond [d])

/-- The transactions of one step of EE_READSTR: one for every address of the EEPROM. -/
def readStrBurst : Nat := 65536

/-- EE_READSTR (R229). -/
def execEeReadStr (addr : Addr) (s : State) : Host.Outcome State Fault Refusal :=
  .next (eeReadStrFrom (encodeWord (.eeReadStr addr)) readStrBurst addr s)

/-- EE_ZERO over the next `n` addresses from `a` on (R230). On a bus that is not enabled the command does not
end (R231, R319): a range with an address in it stops at its first bus event, an empty one with none driven
(entry 22). -/
def eeZeroFrom (cw : CmdWord) : Nat → Addr → State → State
  | 0, _, s => if s.busEnabled then s else s.hold cw .port
  | n + 1, a, s =>
    match s.eeWrite a 0x00#8 with
    | (s', true) => eeZeroFrom cw n (nextAddr a) s'
    | (s', false) => s'.hold cw .port

/-- EE_ZERO (R230). -/
def execEeZero (first limit : Addr) (s : State) : Host.Outcome State Fault Refusal :=
  .next (eeZeroFrom (encodeWord (.eeZero first limit)) (rangeLength first limit) first s)

end Sys2Proof.Machine
end

