-- ==== Sys2Proof/Machine/Framebuffer.lean ====
section
/-!
DEFINITION. The framebuffer commands (spec/40_framebuffer.md): CLEAR, SETPIXEL, INVERT, SERIALIZE, LOADBITMAP, FLUSH.
-/

namespace Sys2Proof.Machine

/-- The VRAM of all zeros. -/
@[irreducible] def vramZero : Vram := Vector.replicate 504 0x00#8

/-- CLEAR (R110). -/
def execClear (s : State) : Host.Outcome State Fault Refusal :=
  .next (s.setVram vramZero)

/-- SETPIXEL (R111). -/
def execSetPixel (x y : Byte) (on : Bool) (s : State) : Host.Outcome State Fault Refusal :=
  .next (s.setVram (pix (coord x) (coord y) on s.vram))

/-- Every byte XOR 0xFF (R112). -/
@[irreducible] def vramInvert (v : Vram) : Vram := Vector.ofFn fun i => v[i] ^^^ 0xFF#8

/-- INVERT (R112). -/
def execInvert (s : State) : Host.Outcome State Fault Refusal :=
  .next (s.setVram (vramInvert s.vram))

/-- The 504 bytes in wire order: index order (R55). -/
def vramBytes (v : Vram) : List Byte := v.toList

/-- SERIALIZE (R113). -/
def execSerialize (s : State) : Host.Outcome State Fault Refusal :=
  .next (s.respond (vramBytes s.vram))

/-- LOADBITMAP with `left` bytes still to come: byte `504 − left` is next. It holds when the command stream is empty
(R60, R114). -/
def loadBitmapFrom (cw : CmdWord) : Nat → State → State
  | 0, s => s
  | left + 1, s =>
    match s.cmd with
    | [] => s.hold cw (.loadBitmap (504 - (left + 1)))
    | b :: rest => loadBitmapFrom cw left ((s.setCmd rest).setVram (vramWrite (504 - (left + 1)) b s.vram))

/-- LOADBITMAP (R114). -/
def execLoadBitmap (s : State) : Host.Outcome State Fault Refusal :=
  .next (loadBitmapFrom (encodeWord .loadBitmap) 504 s)

/-- The events of one FLUSH frame (R115, R116). -/
def flushEvents (v : Vram) : List PortEvent :=
  .panelSelect true :: (vramBytes v).map .panelTx ++ [.panelSelect false]

/-- FLUSH (R116). When RESET cuts the frame after `n` events, chip-select is still enabled if any was
driven, and the panel image is the new one only if all 504 bytes were (DEDUCED from R35, entry 23). -/
def execFlush (s : State) : Host.Outcome State Fault Refusal :=
  match s.drive .panelLink (flushEvents s.vram) with
  | (s', none) => .next ((s'.setPanel s.vram).setChipSelect false)
  | (s', some n) =>
    .next (((if 505 ≤ n then s'.setPanel s.vram else s').setChipSelect (decide (0 < n))).hold (encodeWord .flush) .port)

end Sys2Proof.Machine
end

