-- ==== Sys2Proof/Machine/Rasterizer.lean ====
section
/-!
DEFINITION. The rasterizer commands (spec/41_rasterizer.md): PLOT, LINE, RECT, BAR, CIRCLE. All arithmetic is on
mathematical integers (R148); every pixel goes through `plot` (R140).
-/

namespace Sys2Proof.Machine

/-- `Plot(x, y, on)` (R140): exactly `Pix(x, y) <- on`. -/
def plot (x y : Int) (on : Bool) (v : Vram) : Vram := pix x y on v

/-- Plot a sequence of points in order. -/
def plotAll (pts : List (Int × Int)) (on : Bool) (v : Vram) : Vram :=
  pts.foldl (fun v p => plot p.1 p.2 on v) v

/-- PLOT (R141). -/
def execPlot (x y : Byte) (on : Bool) (s : State) : Host.Outcome State Fault Refusal :=
  .next (s.setVram (plot (coord x) (coord y) on s.vram))

/-- The Bresenham loop of R142 over `n` points, as (major, minor) coordinates: `dmaj`, `dmin` the distances,
`smaj`, `smin` the steps, `P` the decision variable. -/
def bresenham (dmaj dmin smaj smin : Int) : Nat → Int → Int → Int → List (Int × Int)
  | 0, _, _, _ => []
  | n + 1, maj, min, P =>
    (maj, min) ::
      (if P < 0 then bresenham dmaj dmin smaj smin n (maj + smaj) min (P + 2 * dmin)
      else bresenham dmaj dmin smaj smin n (maj + smaj) (min + smin) (P + 2 * dmin - 2 * dmaj))

/-- The step direction from `p` to `q` (R142): −1 when `p > q`, +1 otherwise. -/
def stepSign (p q : Int) : Int := if p > q then -1 else 1

/-- Whether x is the major axis (R142, R145): ties go to x. -/
def xMajor (x1 y1 x2 y2 : Int) : Bool := decide ((y2 - y1).natAbs ≤ (x2 - x1).natAbs)

/-- `LinePts(x1, y1, x2, y2)` (R142). -/
def linePts (x1 y1 x2 y2 : Int) : List (Int × Int) :=
  let dx : Int := (x2 - x1).natAbs
  let dy : Int := (y2 - y1).natAbs
  if xMajor x1 y1 x2 y2 then
    bresenham dx dy (stepSign x1 x2) (stepSign y1 y2) (dx.toNat + 1) x1 y1 (2 * dy - dx)
  else
    (bresenham dy dx (stepSign y1 y2) (stepSign x1 x2) (dy.toNat + 1) y1 x1 (2 * dx - dy)).map fun p => (p.2, p.1)

/-- LINE (R143). -/
def execLine (x1 y1 x2 y2 : Byte) (on : Bool) (s : State) : Host.Outcome State Fault Refusal :=
  .next (s.setVram (plotAll (linePts (coord x1) (coord y1) (coord x2) (coord y2)) on s.vram))

/-- The integers `lo, lo + 1, ..., hi`, none when `lo > hi` (R11). -/
def intRange (lo hi : Int) : List Int := (List.range (hi + 1 - lo).toNat).map fun (k : Nat) => lo + (k : Int)

/-- The points RECT plots, in order (R144). -/
def rectPts (x1 y1 x2 y2 : Int) (fill : Bool) : List (Int × Int) :=
  if fill then
    (intRange (min x1 x2) (max x1 x2)).flatMap fun x => (intRange (min y1 y2) (max y1 y2)).map fun y => (x, y)
  else
    linePts x1 y1 x2 y1 ++ linePts x2 y1 x2 y2 ++ linePts x2 y2 x1 y2 ++ linePts x1 y2 x1 y1

/-- RECT (R144). -/
def execRect (x1 y1 x2 y2 : Byte) (fill on : Bool) (s : State) : Host.Outcome State Fault Refusal :=
  .next (s.setVram (plotAll (rectPts (coord x1) (coord y1) (coord x2) (coord y2) fill) on s.vram))

/-- The offsets of a bar of width `w` (R145): `−(w div 2) .. (w div 2) + (w mod 2) − 1`, exactly `w` of them. -/
def barOffsets (w : Int) : List Int := intRange (-(w / 2)) (w / 2 + w % 2 - 1)

/-- The points BAR plots, in order (R145): the offsets run along the minor axis. -/
def barPts (x1 y1 x2 y2 w : Int) : List (Int × Int) :=
  (linePts x1 y1 x2 y2).flatMap fun p =>
    (barOffsets w).map fun j => if xMajor x1 y1 x2 y2 then (p.1, p.2 + j) else (p.1 + j, p.2)

/-- BAR (R145). -/
def execBar (x1 y1 x2 y2 width : Byte) (on : Bool) (s : State) : Host.Outcome State Fault Refusal :=
  .next (s.setVram (plotAll (barPts (coord x1) (coord y1) (coord x2) (coord y2) (coord width)) on s.vram))

/-- The loop of R146 from octant pair `(a, b)`; the first argument bounds its passes. -/
def circleLoop : Nat → Int → Int → Int → List (Int × Int)
  | 0, _, _, _ => []
  | n + 1, a, b, P =>
    let a' := a + 1
    let b' := if P < 0 then b else b - 1
    let P' := if P < 0 then P + 3 + 2 * a else P + 5 + 2 * (a - b)
    (a, b) :: (if a' ≤ b' then circleLoop n a' b' P' else [])

/-- `CircleSteps(r)` (R146). `a` grows by 1 a pass and the loop ends once `a > b`, where `b ≤ r`, so `r + 1` passes
are enough. -/
def circleSteps (r : Int) : List (Int × Int) := circleLoop (r.toNat + 1) 0 r (1 - r)

/-- The points of one step of CIRCLE, in order (R147): 8 symmetric points, or the four spans that join them. -/
def circleStepPts (cx cy : Int) (fill : Bool) (p : Int × Int) : List (Int × Int) :=
  let a := p.1
  let b := p.2
  if fill then
    linePts (cx - a) (cy + b) (cx + a) (cy + b) ++ linePts (cx - a) (cy - b) (cx + a) (cy - b) ++
      linePts (cx - b) (cy + a) (cx + b) (cy + a) ++ linePts (cx - b) (cy - a) (cx + b) (cy - a)
  else
    [(cx + a, cy + b), (cx + b, cy + a), (cx - a, cy + b), (cx - b, cy + a),
      (cx + b, cy - a), (cx + a, cy - b), (cx - a, cy - b), (cx - b, cy - a)]

/-- The points CIRCLE plots, in order (R147). -/
def circlePts (cx cy r : Int) (fill : Bool) : List (Int × Int) :=
  (circleSteps r).flatMap (circleStepPts cx cy fill)

/-- CIRCLE (R147). -/
def execCircle (cx cy r : Byte) (fill on : Bool) (s : State) : Host.Outcome State Fault Refusal :=
  .next (s.setVram (plotAll (circlePts (coord cx) (coord cy) (coord r) fill) on s.vram))

end Sys2Proof.Machine
end

