-- ==== Sys2Proof/Machine/Text.lean ====
section
/-!
DEFINITION. The text commands (spec/42_text.md): GOTOXY, DRAWCHAR, DRAWSTRING, DRAWLARGE.
-/

namespace Sys2Proof.Machine

/-- GOTOXY (R181): each coordinate saturates at its upper bound. -/
def execGotoXY (col row : Byte) (s : State) : Host.Outcome State Fault Refusal :=
  .next (s.setCursor (min (cursorOperand col) 83) (min (cursorOperand row) 5))

/-- The page after `row`; the last wraps to 0 (R182, C6). -/
def rowBelow (row : Nat) : Nat := (row + 1) % 6

/-- The page before `row`; 0 wraps to the last (R182). -/
def rowAbove (row : Nat) : Nat := (row + 5) % 6

/-- Move the cursor right by `w` columns; a new column past 83 wraps to column 0 of the next row (R182, R186). -/
def State.advanceCursor (w : Nat) (s : State) : State :=
  if s.curCol + w > 83 then s.setCursor 0 (rowBelow s.curRow) else s.setCursor (s.curCol + w) s.curRow

/-- Move the cursor back one 6-column cell (R182). -/
def State.cursorBack (s : State) : State :=
  if 6 ≤ s.curCol then s.setCursor (s.curCol - 6) s.curRow else s.setCursor 78 (rowAbove s.curRow)

/-- Write columns of the cursor's page from the cursor's column on. -/
def State.putColsAtCursor (bs : List Byte) (s : State) : State := s.setVram (putCols s.curRow s.curCol bs s.vram)

/-- Whether `code` is in the domain of `GLYPH5` (R30, C7). -/
def printable (code : Byte) : Bool := decide (0x20 ≤ code.toNat ∧ code.toNat ≤ 0x7F)

/-- `GLYPH5(code)[k]` for a printable code and `k < 5` (R30). -/
def glyphByte (p : Params) (code : Byte) (k : Nat) : Byte := p.glyph5[(code.toNat - 0x20) * 5 + k]?.getD 0#8

/-- The 6 columns of a character cell: 5 glyph columns and the blank separator (R182). -/
def glyphCell (p : Params) (code : Byte) : List Byte := (List.range 5).map (glyphByte p code) ++ [0x00#8]

/-- `CharStep(code)` (R182). -/
def charStep (code : Byte) (s : State) : State :=
  if code = 0x0A#8 then s.setCursor 0 (rowBelow s.curRow)
  else if code = 0x08#8 then s.cursorBack.putColsAtCursor (List.replicate 6 0x00#8)
  else if printable code then (s.putColsAtCursor (glyphCell s.params code)).advanceCursor 6
  else s

/-- DRAWCHAR (R183). -/
def execDrawChar (code : Byte) (s : State) : Host.Outcome State Fault Refusal :=
  .next (charStep code s)

/-- DRAWSTRING over the bytes the command stream holds (R184): up to the first 0x00, or all of them, and
then it holds. -/
def drawStringFrom (cw : CmdWord) : List Byte → State → State
  | [], s => (s.setCmd []).hold cw .drawString
  | b :: rest, s => if b = 0x00#8 then s.setCmd rest else drawStringFrom cw rest (charStep b s)

/-- DRAWSTRING (R184). -/
def execDrawString (s : State) : Host.Outcome State Fault Refusal :=
  .next (drawStringFrom (encodeWord .drawString) s.cmd s)

/-- The large-digit alphabet (R31). -/
inductive LargeSymbol where
  | minus
  | dot
  | space
  | digit (d : Fin 10)
deriving DecidableEq, Repr

/-- `LargeSym(code)` (R185). -/
def largeSymbol (code : Byte) : Option LargeSymbol :=
  if code = 0x2D#8 then some .minus
  else if code = 0x2E#8 then some .dot
  else if code = 0x20#8 then some .space
  else if h : 0x30 ≤ code.toNat ∧ code.toNat ≤ 0x39 then some (.digit ⟨code.toNat - 0x30, by omega⟩)
  else none

/-- The position of a symbol in the alphabet. -/
def largePosition : LargeSymbol → Nat
  | .minus => 0
  | .dot => 1
  | .space => 2
  | .digit d => 3 + d.val

/-- `LWIDTH(s)` (R32). -/
def largeWidth : LargeSymbol → Nat
  | .dot => 5
  | .minus => 10
  | .space => 10
  | .digit _ => 10

/-- `LARGE(s)[k]` for `k < 20` (R31). -/
def largeByte (p : Params) (sym : LargeSymbol) (k : Nat) : Byte := p.large[largePosition sym * 20 + k]?.getD 0#8

/-- The columns of the upper page of a symbol: bytes `0 .. LWIDTH − 1` (R31, R32). -/
def largeUpper (p : Params) (sym : LargeSymbol) : List Byte := (List.range (largeWidth sym)).map (largeByte p sym)

/-- The columns of the lower page of a symbol: bytes `10 .. 10 + LWIDTH − 1` (R31, R32). -/
def largeLower (p : Params) (sym : LargeSymbol) : List Byte :=
  (List.range (largeWidth sym)).map fun k => largeByte p sym (10 + k)

/-- Write a two-page cell at the cursor and advance by its width `w` (R186). The two pages are different
bytes, so their columns may be written page by page. -/
def State.putLarge (upper lower : List Byte) (w : Nat) (s : State) : State :=
  (s.setVram (putCols (s.curRow + 1) s.curCol lower (putCols s.curRow s.curCol upper s.vram))).advanceCursor w

/-- DRAWLARGE of a code outside the alphabet (R186, R287). -/
def State.badLarge (s : State) : State :=
  match s.params.badGlyph with
  | .blank => (s.raise .badGlyph).putLarge (List.replicate 10 0x00#8) (List.replicate 10 0x00#8) 10
  | .fault => (s.raise .badGlyph).setFaultMark true

/-- DRAWLARGE (R186). -/
def execDrawLarge (code : Byte) (s : State) : Host.Outcome State Fault Refusal :=
  match largeSymbol code with
  | some sym => .next (s.putLarge (largeUpper s.params sym) (largeLower s.params sym) (largeWidth sym))
  | none => .next s.badLarge

end Sys2Proof.Machine
end

