-- ==== Sys2Proof/Machine/Dispatch.lean ====
section
/-!
DEFINITION. The meaning of each command: one arm per constructor of `Instr`, each a direct call of its meaning.
-/

namespace Sys2Proof.Machine

def exec (i : Instr) (s : State) : Host.Outcome State Fault Refusal :=
  match i with
  | .nop => Sys2Proof.Machine.execNop s
  | .clear => Sys2Proof.Machine.execClear s
  | .setPixel x y on => Sys2Proof.Machine.execSetPixel x y on s
  | .invert => Sys2Proof.Machine.execInvert s
  | .serialize => Sys2Proof.Machine.execSerialize s
  | .loadBitmap => Sys2Proof.Machine.execLoadBitmap s
  | .flush => Sys2Proof.Machine.execFlush s
  | .plot x y on => Sys2Proof.Machine.execPlot x y on s
  | .line x1 y1 x2 y2 on => Sys2Proof.Machine.execLine x1 y1 x2 y2 on s
  | .rect x1 y1 x2 y2 fill on => Sys2Proof.Machine.execRect x1 y1 x2 y2 fill on s
  | .bar x1 y1 x2 y2 width on => Sys2Proof.Machine.execBar x1 y1 x2 y2 width on s
  | .circle cx cy r fill on => Sys2Proof.Machine.execCircle cx cy r fill on s
  | .gotoXY col row => Sys2Proof.Machine.execGotoXY col row s
  | .drawChar code => Sys2Proof.Machine.execDrawChar code s
  | .drawString => Sys2Proof.Machine.execDrawString s
  | .drawLarge code => Sys2Proof.Machine.execDrawLarge code s
  | .eeRead addr => Sys2Proof.Machine.execEeRead addr s
  | .eeWrite addr value => Sys2Proof.Machine.execEeWrite addr value s
  | .eeWriteStr addr len => Sys2Proof.Machine.execEeWriteStr addr len s
  | .eeReadStr addr => Sys2Proof.Machine.execEeReadStr addr s
  | .eeZero first limit => Sys2Proof.Machine.execEeZero first limit s
  | .getStatus => Sys2Proof.Machine.execGetStatus s
  | .clrErr => Sys2Proof.Machine.execClrErr s

end Sys2Proof.Machine
end

