-- ==== Sys2Proof/Machine/Environment.lean ====
section
/-!
DEFINITION. What the host can do between two steps (R3, R34, R231, R310): send bytes, take response bytes, assert
RESET, enable the EEPROM bus. No step performs these; a statement about a run with a live host puts them
between steps.
-/

namespace Sys2Proof.Machine

/-- The host appends bytes to the command stream (R34, R60). -/
def State.hostSend (bs : List Byte) (s : State) : State := s.setCmd (s.cmd ++ bs)

/-- The host takes the byte at the head of the response stream, if there is one (R34, R61). -/
def State.hostTake (s : State) : Option Byte × State :=
  match s.rsp with
  | [] => (none, s)
  | b :: rest => (some b, s.setRsp rest)

/-- The host or the platform asserts RESET (R310); the next step serves it. -/
def State.assertReset (s : State) : State := s.setResetIn true

/-- The host or the platform enables the EEPROM bus, or disables it (R231, R313). -/
def State.enableBus (b : Bool) (s : State) : State := s.setBusEnabled b

end Sys2Proof.Machine
end

