-- ==== Sys2Proof/Machine/Fetch.lean ====
section
/-!
DEFINITION. Everything of a step but the meanings: taking a header from the command stream (R27, R80),
rejecting a packet (R87, R88), and going on with a command that held (R27, R60).
-/

namespace Sys2Proof.Machine

/-- The parser with these header bytes received (R27). -/
def headerSoFar (bs : List Byte) : Parser := if bs = [] then .idle else .header bs

/-- What taking a header came to. -/
inductive Fetched where
  /-- The command stream ran empty before the eighth header byte: the FBC holds (R60). -/
  | held (s : State)
  /-- All 8 header bytes were taken. -/
  | word (cw : CmdWord) (s : State)
deriving DecidableEq, Repr

/-- Take the rest of a header of which the bytes `got` were received. -/
def State.fetch (got : List Byte) (s : State) : Fetched :=
  match splitBytes (8 - got.length) s.cmd with
  | none => .held ((s.setCmd []).setParser (headerSoFar (got ++ s.cmd)))
  | some (h, rest) => .word (wordOfBytes (got ++ h)) ((s.setCmd rest).setParser .idle)

/-- Discard `n` payload bytes of a rejected packet; hold when the command stream is empty (R60, R87). -/
def discardFrom (cw : CmdWord) : Nat → State → State
  | 0, s => s
  | n + 1, s =>
    match s.cmd with
    | [] => s.hold cw (.discard (n + 1))
    | _ :: rest => discardFrom cw n (s.setCmd rest)

/-- Discard payload bytes up to and including the first 0x00 (R87, R184). -/
def discardThroughNullFrom (cw : CmdWord) : List Byte → State → State
  | [], s => (s.setCmd []).hold cw .discardThroughNull
  | b :: rest, s => if b = 0x00#8 then s.setCmd rest else discardThroughNullFrom cw rest s

/-- An illegal command (R88): the error and nothing else; the header is already consumed. -/
def rejectIllegal (s : State) : State := s.raise .illegalOpcode

/-- A reserved-bits error (R87): the error; the payload is consumed as R84 gives it and discarded. -/
def rejectReserved (cw : CmdWord) (s : State) : State :=
  match cwPayload cw with
  | .bytes n => discardFrom cw n (s.raise .reservedBits)
  | .throughNull => discardThroughNullFrom cw s.cmd (s.raise .reservedBits)

/-- Go on with the command `cw` that held at `p`; the parser is idle again unless it holds once more. A
command that waits for a port event waits for ever (R232). -/
def resumeExec (cw : CmdWord) (p : Progress) (s : State) : State :=
  match p with
  | .loadBitmap k => loadBitmapFrom cw (504 - k) (s.setParser .idle)
  | .drawString => drawStringFrom cw s.cmd (s.setParser .idle)
  | .eeWriteStr a left stopped => eeWriteStrFrom cw left a stopped (s.setParser .idle)
  | .eeReadStr a => eeReadStrFrom cw readStrBurst a (s.setParser .idle)
  | .discard n => discardFrom cw n (s.setParser .idle)
  | .discardThroughNull => discardThroughNullFrom cw s.cmd (s.setParser .idle)
  | .port => s

/-- Whether a wait of R27's `Exec` is one: some payload byte is still missing. -/
def progressOk : Progress → Bool
  | .loadBitmap k => decide (k < 504)
  | .eeWriteStr _ left _ => decide (0 < left ∧ left < 65536)
  | .discard left => decide (0 < left ∧ left < 65536)
  | .drawString => true
  | .eeReadStr _ => true
  | .discardThroughNull => true
  | .port => true

/-- Whether a parser value is one of R27's: `Header(k, bytes)` has `1 ≤ k ≤ 7`. -/
def parserOk : Parser → Bool
  | .idle => true
  | .header bs => decide (1 ≤ bs.length ∧ bs.length ≤ 7)
  | .exec _ p => progressOk p

/-- A payload of zeros of a given shape. -/
def zeroPayload : PayloadShape → List Byte
  | .bytes n => List.replicate n 0x00#8
  | .throughNull => [0x00#8]

/-- The packet whose command word has the low `nbits` bits of `w`, with the payload of zeros that word takes (R84). -/
def tablePacket (nbits w : Nat) : List Byte :=
  tableBytes nbits w ++ zeroPayload (cwPayload (BitVec.ofNat 64 (w % 2 ^ nbits)))

end Sys2Proof.Machine
end

