-- ==== Sys2Proof/Machine/Step.lean ====
section
/-!
DEFINITION. One step of the FBC, and where the host's check places an instruction.
-/

namespace Sys2Proof.Machine

/-- What follows once a whole header was taken (R87 to R89): run the command it decodes to, or reject the packet. -/
def runWord (cw : CmdWord) (s : State) : Host.Outcome State Fault Refusal :=
  match decodeWord cw with
  | .instr i => exec i s
  | .illegalOpcode => .next (rejectIllegal s)
  | .reservedBits => .next (rejectReserved cw s)

/-- Take a header and run it; hold when the command stream runs empty first (R60). -/
def fetchAndRun (got : List Byte) (s : State) : Host.Outcome State Fault Refusal :=
  match s.fetch got with
  | .held s' => .next s'
  | .word cw s' => runWord cw s'

/-- One step: serve RESET if it is asserted (R310), go on with a command that held (R27), or take the next
packet and run it to its end (R26, R66), as far as the bytes and the port events it needs are there. A step
with nothing to do changes nothing: the FBC holds (R60, R232). -/
def step (s : State) : Host.Outcome State Fault Refusal :=
  if s.resetIn then .next s.takeReset
  else if parserOk s.parser then
    match s.parser with
    | .idle => fetchAndRun [] s
    | .header got => fetchAndRun got s
    | .exec cw p => .next (resumeExec cw p s)
  else .fault .badParser

/-- `s` with the packet of the command word `w` (`nbits` bits of it, zeros above, a payload of zeros as long
as the word takes) at the head of the command stream, at a packet boundary, RESET released: the next step
runs it. It stands for the host sending that packet (entry 16). -/
def State.withFetchWord (s : State) (nbits w : Nat) : State :=
  { s with cmd := tablePacket nbits w ++ s.cmd, parser := .idle, resetIn := false }

end Sys2Proof.Machine
end

