-- ==== Sys2Proof/Safety.lean ====
section
/-!
DEFINITION. What a sound state is (the invariant of spec/10_state.md) and what a safe step is.
-/

namespace Sys2Proof.Machine

/-- The FBC is stopped in the middle of a command by a port (R232, R310). -/
def State.atPort (s : State) : Bool :=
  match s.parser with
  | .exec _ .port => true
  | .exec _ _ => false
  | .idle => false
  | .header _ => false

/-- The invariant of the machine: the cursor in its ranges (R23), `STATUS` legal (R28), the parser one of
R27's values, the EEPROM's content in canonical form, both ports inactive unless a command is stopped at a
port (R33), the fault mark only under the `fault` policy (R287). -/
structure State.Inv (s : State) : Prop where
  col : s.curCol ≤ 83
  row : s.curRow ≤ 5
  status : statusLegal s.status = true
  parser : parserOk s.parser = true
  memory : Memory.wf s.params.eeErased s.ee = true
  bus : s.atPort = false → s.bus = .idle
  select : s.atPort = false → s.chipSelect = false
  mark : s.faultMark = true → s.params.badGlyph = .fault

/-- A step is safe when it answers a next state: it neither faults nor refuses. -/
def Safe (s : State) : Prop := ∃ t, step s = .next t

end Sys2Proof.Machine
end

