-- ==== Sys2Proof/Certificates/Slice0/Obligations.lean ====
section
/-!
DEFINITION. The statements for the provers. Each docstring names the rules of spec/ it formalises, or says
which entry of notes/assumptions/ it rests on. The vocabulary the statements share comes first.
-/

namespace Sys2Proof.Claims

open Sys2Proof.Machine

/-! ## Encoding vocabulary -/

/-- One row of spec/opcode_table.json: the mnemonic, the mask of the bits that are fixed, their values. -/
structure TableRow where
  mnemonic : String
  mask : CmdWord
  value : CmdWord
deriving DecidableEq, Repr

/-- spec/opcode_table.json, row by row. -/
def opcodeTable : List TableRow :=
  [⟨"NOP", 0xFFFFFFFFFFFFFFFF, 0x00⟩, ⟨"CLEAR", 0xFFFFFFFFFFFFFFFF, 0x01⟩, ⟨"SETPIXEL", 0xFFFFFFFF0000FEFF, 0x02⟩,
    ⟨"INVERT", 0xFFFFFFFFFFFFFFFF, 0x03⟩, ⟨"SERIALIZE", 0xFFFFFFFFFFFFFFFF, 0x04⟩,
    ⟨"LOADBITMAP", 0xFFFFFFFFFFFFFFFF, 0x05⟩, ⟨"FLUSH", 0xFFFFFFFFFFFFFFFF, 0x06⟩] ++
  [⟨"PLOT", 0xFFFFFFFF0000FEFF, 0x10⟩, ⟨"LINE", 0xFFFF00000000FEFF, 0x11⟩, ⟨"RECT", 0xFFFF00000000FCFF, 0x12⟩,
    ⟨"BAR", 0xFF0000000000FEFF, 0x13⟩, ⟨"CIRCLE", 0xFFFFFF000000FCFF, 0x14⟩] ++
  [⟨"GOTOXY", 0xFFFFFFFF0000FFFF, 0x20⟩, ⟨"DRAWCHAR", 0xFFFFFFFFFF00FFFF, 0x21⟩,
    ⟨"DRAWSTRING", 0xFFFFFFFFFFFFFFFF, 0x22⟩, ⟨"DRAWLARGE", 0xFFFFFFFFFF00FFFF, 0x23⟩] ++
  [⟨"EE_READ", 0xFFFFFFFF0000FFFF, 0x30⟩, ⟨"EE_WRITE", 0xFFFFFF000000FFFF, 0x31⟩,
    ⟨"EE_WRITESTR", 0xFFFF00000000FFFF, 0x32⟩, ⟨"EE_READSTR", 0xFFFFFFFF0000FFFF, 0x33⟩,
    ⟨"EE_ZERO", 0xFFFF00000000FFFF, 0x34⟩, ⟨"GETSTATUS", 0xFFFFFFFFFFFFFFFF, 0x3E⟩,
    ⟨"CLRERR", 0xFFFFFFFFFFFFFFFF, 0x3F⟩]

/-- The mnemonic of a command (R82). -/
def mnemonic : Instr → String
  | .nop => "NOP"
  | .clear => "CLEAR"
  | .setPixel _ _ _ => "SETPIXEL"
  | .invert => "INVERT"
  | .serialize => "SERIALIZE"
  | .loadBitmap => "LOADBITMAP"
  | .flush => "FLUSH"
  | .plot _ _ _ => "PLOT"
  | .line _ _ _ _ _ => "LINE"
  | .rect _ _ _ _ _ _ => "RECT"
  | .bar _ _ _ _ _ _ => "BAR"
  | .circle _ _ _ _ _ => "CIRCLE"
  | .gotoXY _ _ => "GOTOXY"
  | .drawChar _ => "DRAWCHAR"
  | .drawString => "DRAWSTRING"
  | .drawLarge _ => "DRAWLARGE"
  | .eeRead _ => "EE_READ"
  | .eeWrite _ _ => "EE_WRITE"
  | .eeWriteStr _ _ => "EE_WRITESTR"
  | .eeReadStr _ => "EE_READSTR"
  | .eeZero _ _ => "EE_ZERO"
  | .getStatus => "GETSTATUS"
  | .clrErr => "CLRERR"

/-- The 23 assigned opcodes (R83). -/
abbrev assigned (op : Byte) : Prop :=
  op.toNat ≤ 0x06 ∨ (0x10 ≤ op.toNat ∧ op.toNat ≤ 0x14) ∨ (0x20 ≤ op.toNat ∧ op.toNat ≤ 0x23) ∨
    (0x30 ≤ op.toNat ∧ op.toNat ≤ 0x34) ∨ op.toNat = 0x3E ∨ op.toNat = 0x3F

/-- An assigned opcode with a 1 in a bit of `CW[63:8]` that R82 does not list as used by it: the opcode is a
row's, the row's fixed bits are not. -/
abbrev unusedBitSet (cw : CmdWord) : Prop :=
  ∃ row ∈ opcodeTable, cw &&& 0xFF#64 = row.value ∧ cw &&& row.mask ≠ row.value

/-- The header vectors of spec/95_test_vectors.md section 2: the command word, the bytes in stream order,
the command. -/
def headerVectors : List (CmdWord × List Byte × Instr) :=
  [(0x0000000000000000, [0, 0, 0, 0, 0, 0, 0, 0], .nop),
    (0x0000000000000001, [1, 0, 0, 0, 0, 0, 0, 0], .clear),
    (0x000000000A030102, [2, 1, 3, 0x0A, 0, 0, 0, 0], .setPixel 3 10 true),
    (0x0000000000000006, [6, 0, 0, 0, 0, 0, 0, 0], .flush),
    (0x00002F5300000111, [0x11, 1, 0, 0, 0x53, 0x2F, 0, 0], .line 0 0 83 47 true),
    (0x0000030301010312, [0x12, 3, 1, 1, 3, 3, 0, 0], .rect 1 1 3 3 true true),
    (0x0003040204000113, [0x13, 1, 0, 4, 2, 4, 3, 0], .bar 0 4 2 4 3 true),
    (0x000000020A0A0214, [0x14, 2, 0x0A, 0x0A, 2, 0, 0, 0], .circle 10 10 2 true false)] ++
  [(0x00000000030C0020, [0x20, 0, 0x0C, 3, 0, 0, 0, 0], .gotoXY 12 3),
    (0x0000000000370023, [0x23, 0, 0x37, 0, 0, 0, 0, 0], .drawLarge 0x37),
    (0x0000002A90000031, [0x31, 0, 0, 0x90, 0x2A, 0, 0, 0], .eeWrite 0x9000 0x2A),
    (0x0000000301000032, [0x32, 0, 0, 1, 3, 0, 0, 0], .eeWriteStr 0x0100 3),
    (0x0000001300100034, [0x34, 0, 0x10, 0, 0x13, 0, 0, 0], .eeZero 0x0010 0x0013),
    (0x000000000000003E, [0x3E, 0, 0, 0, 0, 0, 0, 0], .getStatus)]

/-! ## Steps -/

/-- `n` steps, as far as they answer a next state. -/
def steps : Nat → State → Host.Outcome State Fault Refusal
  | 0, s => .next s
  | n + 1, s =>
    match step s with
    | .next t => steps n t
    | .fault f => .fault f
    | .refused r => .refused r

/-- The header bytes `got` were taken earlier, the bytes `h` complete the header and stand at the head of
the stream, `rest` follows them, and RESET is not asserted. -/
abbrev headerArrives (s : State) (got h rest : List Byte) : Prop :=
  s.resetIn = false ∧ s.parser = headerSoFar got ∧ got.length ≤ 7 ∧ got.length + h.length = 8 ∧ s.cmd = h ++ rest

/-- The parser waits for bytes of the host (R60). -/
def waitsForBytes : Parser → Bool
  | .idle => false
  | .header _ => true
  | .exec _ (.loadBitmap _) => true
  | .exec _ .drawString => true
  | .exec _ (.eeWriteStr _ _ _) => true
  | .exec _ (.discard _) => true
  | .exec _ .discardThroughNull => true
  | .exec _ (.eeReadStr _) => false
  | .exec _ .port => false

/-- `STATUS` after an error with this code, from a legal `STATUS` (R28, R281). -/
def statusAfter (code : BitVec 4) (st : Byte) : Byte := if st.getLsbD 0 then st else code ++ 0#3 ++ 1#1

/-- `payload` is the payload R84 gives to the opcode of a word: 504 bytes after 0x05, `LEN = CW[47:32]`
bytes after 0x32, the bytes up to and including the first 0x00 after 0x22, none after every other opcode. -/
abbrev isPayloadOf (cw : CmdWord) (payload : List Byte) : Prop :=
  if cw.extractLsb' 0 8 = 0x05#8 then payload.length = 504
  else if cw.extractLsb' 0 8 = 0x32#8 then payload.length = (cw.extractLsb' 32 16).toNat
  else if cw.extractLsb' 0 8 = 0x22#8 then payload.getLast? = some 0#8 ∧ 0#8 ∉ payload.dropLast
  else payload = []

/-! ## Which commands may write what -/

def mayWriteVram : Instr → Bool
  | .clear | .setPixel _ _ _ | .invert | .loadBitmap | .plot _ _ _ | .line _ _ _ _ _ | .rect _ _ _ _ _ _
  | .bar _ _ _ _ _ _ | .circle _ _ _ _ _ | .drawChar _ | .drawString | .drawLarge _ => true
  | _ => false

def mayMoveCursor : Instr → Bool
  | .gotoXY _ _ | .drawChar _ | .drawString | .drawLarge _ => true
  | _ => false

def mayWriteStatus : Instr → Bool
  | .drawLarge _ | .clrErr => true
  | _ => false

def takesPayload : Instr → Bool
  | .loadBitmap | .drawString | .eeWriteStr _ _ => true
  | _ => false

def responds : Instr → Bool
  | .serialize | .eeRead _ | .eeReadStr _ | .getStatus => true
  | _ => false

def mayWriteEeprom : Instr → Bool
  | .eeWrite _ _ | .eeWriteStr _ _ | .eeZero _ _ => true
  | _ => false

def usesBus : Instr → Bool
  | .eeRead _ | .eeWrite _ _ | .eeWriteStr _ _ | .eeReadStr _ | .eeZero _ _ => true
  | _ => false

def usesPanel : Instr → Bool
  | .flush => true
  | _ => false

/-! ## Drawing vocabulary -/

/-- The command completes, changes nothing but the framebuffer, sets the pixels of the screen that `covers`
names to `on`, and leaves every other pixel, so every other bit of every byte, as it was. -/
def Draws (s : State) (i : Instr) (on : Bool) (covers : Int → Int → Prop) : Prop :=
  ∃ v, exec i s = .next (s.setVram v) ∧
    ∀ x y : Int, 0 ≤ x → x < 84 → 0 ≤ y → y < 48 →
      (covers x y → pixRead v x y = on) ∧ (¬covers x y → pixRead v x y = pixRead s.vram x y)

/-- `x` lies between two ends, in whichever order they come. -/
abbrev between (p q x : Int) : Prop := min p q ≤ x ∧ x ≤ max p q

/-- The distance of two coordinates. -/
def axisDist (p q : Int) : Int := ((q - p).natAbs : Int)

/-- `w` is `v` with `width` columns of page `page` replaced from column `col` on, column `col + k` by `byte
k`; what falls off the screen is dropped; every other byte is as in `v`. -/
def ColumnsReplaced (page col width : Nat) (byte : Nat → Byte) (v w : Vram) : Prop :=
  ∀ p c, p < 6 → c < 84 →
    vramRead w (p * 84 + c) =
      if p = page ∧ col ≤ c ∧ c < col + width then byte (c - col) else vramRead v (p * 84 + c)

/-- The cursor column after an advance by `w` (R182, R186). -/
def advancedCol (col w : Nat) : Nat := if 84 ≤ col + w then 0 else col + w

/-- The cursor row after an advance by `w` (R182, R186). -/
def advancedRow (col row w : Nat) : Nat := if 84 ≤ col + w then (row + 1) % 6 else row

/-- DRAWCHAR for each character of a list, one after another. -/
def drawEach : List Byte → State → Host.Outcome State Fault Refusal
  | [], s => .next s
  | c :: cs, s =>
    match exec (.drawChar c) s with
    | .next t => drawEach cs t
    | .fault f => .fault f
    | .refused r => .refused r

/-- The large-digit alphabet of R185: the code and the position of its pattern in the table. -/
def largeAlphabet : List (Byte × Nat) :=
  [(0x2D, 0), (0x2E, 1), (0x20, 2), (0x30, 3), (0x31, 4), (0x32, 5), (0x33, 6), (0x34, 7), (0x35, 8), (0x36, 9),
    (0x37, 10), (0x38, 11), (0x39, 12)]

/-- A code outside the large-digit alphabet (R185). -/
abbrev badGlyphCode (code : Byte) : Prop :=
  code ≠ 0x2D#8 ∧ code ≠ 0x2E#8 ∧ code ≠ 0x20#8 ∧ ¬(0x30 ≤ code.toNat ∧ code.toNat ≤ 0x39)

/-! ## EEPROM vocabulary -/

/-- The device selector of R221, written with the bank bit the parameters name. -/
def selectorByte (p : Params) (a : Addr) : Byte :=
  if a.toNat < 0x8000 then 0xA2#8 else 0xA2#8 ||| (1#8 <<< (p.bankBit.val + 1))

/-- The event sequence of R222. -/
def readTrace (p : Params) (a : Addr) (d : Byte) : List PortEvent :=
  [.busStart, .busTx (selectorByte p a), .busTx (a.extractLsb' 8 8), .busTx (a.extractLsb' 0 8), .busRestart,
    .busTx (selectorByte p a ||| 1#8), .busRx .nack (some d), .busStop, .settle p.tSettle]

/-- The event sequence of R223. -/
def writeTrace (p : Params) (a : Addr) (d : Byte) : List PortEvent :=
  [.busStart, .busTx (selectorByte p a), .busTx (a.extractLsb' 8 8), .busTx (a.extractLsb' 0 8), .busTx d, .busStop,
    .settle p.tSettle]

/-- The address `k` places after `a`, modulo 2^16 (R64). -/
def addrAfter (a : Addr) (k : Nat) : Addr := a + BitVec.ofNat 16 k

/-- The bus is enabled and works, a device answers, its content is in canonical form: the conditions of R72
and R231. -/
abbrev busWorks (s : State) : Prop :=
  s.busEnabled = true ∧ s.portPlan = .free ∧ s.device = .present ∧ Memory.wf s.params.eeErased s.ee = true

/-- `t` is `s` but for the command stream, the response stream, the record of the ports and the EEPROM's
content: the fields an EE_ command that completes on a working bus may change. -/
abbrev onlyEepromCommand (s t : State) : Prop :=
  t = { s with cmd := t.cmd, rsp := t.rsp, ports := t.ports, ee := t.ee }

/-- The text of an EE_WRITESTR of `len` payload bytes: those before the first 0x00 among the payload bytes
that are in the stream (R228). -/
def textOf (len : Addr) (s : State) : List Byte := (s.cmd.take len.toNat).takeWhile (· ≠ 0#8)

/-- The EEPROM of `t` is that of `s` with `bytes` stored from `a` on, addresses modulo 2^16. -/
abbrev storesAt (a : Addr) (bytes : List Byte) (s t : State) : Prop :=
  (∀ k b, bytes[k]? = some b → t.eeByte (addrAfter a k) = b) ∧
    ∀ b, (∀ k, k < bytes.length → b ≠ addrAfter a k) → t.eeByte b = s.eeByte b

/-- The state after `n` rounds of EE_READSTR from `a` around all 65536 addresses: each byte read once a
round and responded (R229). -/
def readRounds (a : Addr) (n : Nat) (s : State) : State :=
  (s.setRsp (s.rsp ++ (List.replicate n ((List.range 65536).map fun k => s.eeByte (addrAfter a k))).flatten)).setPorts
    (s.ports ++ (List.replicate n ((List.range 65536).flatMap fun k =>
      readTrace s.params (addrAfter a k) (s.eeByte (addrAfter a k)))).flatten)

/-- A command that drives more than `n` bus events: event `n`, counted from 0, is one of its own (R226 to
R230). A read transaction has 9 events, a write transaction 7. An EE_WRITESTR reaches its terminator only
with its whole payload there; an EE_READSTR goes on as long as no 0x00 and no 0xFF was read. -/
def drivesEvent (s : State) (n : Nat) : Instr → Prop
  | .eeRead _ => n < 9
  | .eeWrite _ _ => n < 7
  | .eeWriteStr _ len =>
    n < 7 * (textOf len s).length ∨ (len.toNat ≤ s.cmd.length ∧ n < 7 * ((textOf len s).length + 1))
  | .eeReadStr a =>
    n < 9 ∨ (s.device = .present ∧
      ∀ k, k < n / 9 → s.eeByte (addrAfter a k) ≠ 0x00#8 ∧ s.eeByte (addrAfter a k) ≠ 0xFF#8)
  | .eeZero first limit => n < 7 * (limit.toNat - first.toNat)
  | _ => False

/-- The bytes a command writes, from its address on, in order (R227, R228, R230). -/
def bytesToWrite (s : State) : Instr → Addr × List Byte
  | .eeWrite a d => (a, [d])
  | .eeWriteStr a len => (a, textOf len s ++ [0x00#8])
  | .eeZero first limit => (first, List.replicate (limit.toNat - first.toNat) 0x00#8)
  | _ => (0, [])

/-- What a command has responded when event `n` is reached: EE_READSTR sends a byte for each transaction
before it (R229), EE_READ sends its byte after its last event (R226). -/
def respondedBefore (s : State) (n : Nat) : Instr → List Byte
  | .eeReadStr a => (List.range (n / 9)).map fun k => s.eeByte (addrAfter a k)
  | _ => []

/-- An EE_WRITESTR that has no byte to write yet and not its whole payload there: it waits for the host
before its first bus event (R60, R228). -/
def waitsForPayload (s : State) : Instr → Bool
  | .eeWriteStr _ len => decide (textOf len s = []) && decide (s.cmd.length < len.toNat)
  | _ => false

/-- The number of payload bytes R84 gives a command of the bus. -/
def payloadLength : Instr → Nat
  | .eeWriteStr _ len => len.toNat
  | _ => 0

/-- The bus events of a command up to its first one: an EE_ZERO with an empty range has none (R230). -/
def firstEvents : Instr → List PortEvent
  | .eeZero first limit => if first.toNat < limit.toNat then [.busStart] else []
  | _ => [.busStart]

/-- The FBC holds in the middle of a command for ever: whatever the host sends, a step changes nothing
(R232; that a step of the model answers the same state then is entry 4). -/
def heldForEver (t : State) : Prop :=
  ∀ bs, step (t.hostSend bs) = .next (t.hostSend bs)

end Sys2Proof.Claims

open Sys2Proof Sys2Proof.Machine Sys2Proof.Claims

/-! ## Encoding -/

/-- R56, R80 to R86: decoding the header of any command gives that command back, every operand at every
value, and leaves what follows the header. -/
def Obligations.DecodeInvertsEncode : Prop :=
  ∀ (i : Instr) (rest : List Byte), decode (encode i ++ rest) = some (.instr i, rest)

/-- R82, R87: a command word that decodes to a command is the word of that command, so no bit of an accepted word is
dropped. -/
def Obligations.EncodeInvertsDecode : Prop :=
  ∀ (cw : CmdWord) (i : Instr), decodeWord cw = .instr i → encodeWord i = cw

/-- R82, R83 and spec/opcode_table.json: for every row, a word decodes to a command with that row's mnemonic
exactly when it has the row's fixed bits. -/
def Obligations.DecodeFollowsOpcodeTable : Prop :=
  ∀ row ∈ opcodeTable, ∀ cw : CmdWord,
    (∃ i, decodeWord cw = .instr i ∧ mnemonic i = row.mnemonic) ↔ cw &&& row.mask = row.value

/-- R89: first the opcode, then the reserved bits, then the command. A word that fails a check executes no
command: its error is raised, and nothing else changes but, for a reserved bit, what discarding the payload
takes (R87). -/
def Obligations.DecodeChecksOpcodeFirst : Prop :=
  ∀ (cw : CmdWord) (s : State),
    (¬assigned (cwOp cw) → runWord cw s = .next (s.raise .illegalOpcode)) ∧
    (assigned (cwOp cw) → unusedBitSet cw →
      ∃ t, runWord cw s = .next t ∧
        t = { s with status := (s.raise .reservedBits).status, cmd := t.cmd, parser := t.parser }) ∧
    (assigned (cwOp cw) → ¬unusedBitSet cw → ∃ i, decodeWord cw = .instr i ∧ runWord cw s = exec i s)

/-- spec/95_test_vectors.md section 2, among them the worked example of R94: the bytes and the word of a command. -/
def Obligations.HeaderVectorsDecode : Prop :=
  ∀ p ∈ headerVectors, wordOfBytes p.2.1 = p.1 ∧ decodeWord p.1 = .instr p.2.2 ∧ encode p.2.2 = p.2.1

/-! ## The step -/

/-- R26, R27, R80: when the header is complete and decodes to a command, the step consumes the header's
bytes, leaves the parser at a packet boundary and is the command's own effect on that state. -/
def Obligations.StepRunsDecodedCommand : Prop :=
  ∀ (s : State) (got h rest : List Byte) (i : Instr),
    headerArrives s got h rest → decodeWord (wordOfBytes (got ++ h)) = .instr i →
      step s = exec i ((s.setCmd rest).setParser .idle)

/-- R27, R60: with too few bytes for the header the step takes those there are and waits. The model's choice
(entry 4): a step without any byte answers the same state, where R60 says that the FBC makes no step. -/
def Obligations.StepWaitsForHeader : Prop :=
  ∀ (s : State) (got : List Byte),
    s.resetIn = false → s.parser = headerSoFar got → got.length + s.cmd.length < 8 →
      step s = .next ((s.setCmd []).setParser (headerSoFar (got ++ s.cmd))) ∧ (s.cmd = [] → step s = .next s)

/-- R88: an unassigned opcode raises ILLEGAL_OPCODE, only the 8 header bytes are consumed whatever the other
bits hold, nothing else changes, and the next byte is byte 0 of the next packet. -/
def Obligations.IllegalPacketTakesHeaderOnly : Prop :=
  ∀ (s : State) (got h rest : List Byte),
    headerArrives s got h rest → ¬assigned (cwOp (wordOfBytes (got ++ h))) →
      step s = .next (((s.setCmd rest).setParser .idle).raise .illegalOpcode)

/-- R87: a reserved-bits error raises RESERVED_BITS, consumes and discards the payload R84 gives the opcode,
and changes nothing else; the next packet is found where it would have been. -/
def Obligations.ReservedBitsDiscardPayload : Prop :=
  ∀ (s : State) (got h payload rest : List Byte),
    headerArrives s got h (payload ++ rest) → unusedBitSet (wordOfBytes (got ++ h)) →
    isPayloadOf (wordOfBytes (got ++ h)) payload →
      step s = .next (((s.setCmd rest).setParser .idle).raise .reservedBits)

/-- R60, R315: a LOADBITMAP, a DRAWSTRING or an EE_WRITESTR whose payload is short holds, with every byte
there taken and, for EE_WRITESTR, its text so far stored. The model's choice (entry 4): a step without a new
byte answers the same state. -/
def Obligations.ShortPayloadHolds : Prop :=
  ∀ s : State, s.resetIn = false →
    (s.cmd.length < 504 →
      ∃ t, exec .loadBitmap s = .next t ∧ t.parser = .exec (encodeWord .loadBitmap) (.loadBitmap s.cmd.length) ∧
        t.cmd = [] ∧ (∀ k b, s.cmd[k]? = some b → vramRead t.vram k = b) ∧
        (∀ k, s.cmd.length ≤ k → vramRead t.vram k = vramRead s.vram k) ∧ step t = .next t) ∧
    (0#8 ∉ s.cmd →
      ∃ t, exec .drawString s = .next t ∧ t.parser = .exec (encodeWord .drawString) .drawString ∧ t.cmd = [] ∧
        step t = .next t) ∧
    ∀ a len : Addr, busWorks s → s.cmd.length < len.toNat →
      ∃ t, exec (.eeWriteStr a len) s = .next t ∧
        t.parser = .exec (encodeWord (.eeWriteStr a len))
          (.eeWriteStr (addrAfter a (textOf len s).length) (len.toNat - s.cmd.length) (decide (0#8 ∈ s.cmd))) ∧
        t.cmd = [] ∧ onlyEepromCommand (s.setParser t.parser) t ∧ t.rsp = s.rsp ∧
        t.ports = s.ports ++ (textOf len s).zipIdx.flatMap (fun p => writeTrace s.params (addrAfter a p.2) p.1) ∧
        storesAt a (textOf len s) s t ∧ step t = .next t

/-- R27, R60, and entry 5 for what one step is: how the host's bytes are cut into pieces does not matter. If
a step consumed what there was and waits for more, then going on with more bytes is the step that had them
all from the start. -/
def Obligations.ByteArrivalDoesNotMatter : Prop :=
  ∀ (s t : State) (bs : List Byte),
    s.resetIn = false → parserOk s.parser = true → step s = .next t → waitsForBytes t.parser = true →
      step (t.hostSend bs) = step (s.hostSend bs)

/-- R260: NOP changes nothing, and a run of zero bytes whose length is a multiple of 8 is a run of NOPs. -/
def Obligations.ZeroBytesAreNops : Prop :=
  (∀ s, exec .nop s = .next s) ∧
  ∀ (n : Nat) (s : State) (rest : List Byte),
    s.resetIn = false → s.parser = .idle → s.cmd = List.replicate (8 * n) 0#8 ++ rest →
      steps n s = .next (s.setCmd rest)

/-! ## Invariants and who writes what -/

/-- Every step keeps the machine's invariant: the cursor ranges (R23), the legal values of STATUS (R28), the
parser's values (R27), the EEPROM's canonical form, the inactive ports (R33), the fault mark's policy
(R287). -/
def Obligations.StepKeepsInvariant : Prop :=
  ∀ s t : State, s.Inv → step s = .next t → t.Inv

/-- The state after power-on reset meets the invariant. -/
def Obligations.ResetMeetsInvariant : Prop := State.reset.Inv

/-- From a state that meets the invariant a step neither faults nor refuses: no error stops the command
stream (R280, R285). -/
def Obligations.InvariantStatesStep : Prop :=
  ∀ s : State, s.Inv → Safe s

/-- R23: every command, and every step, leaves the cursor in its ranges. -/
def Obligations.CursorStaysInRange : Prop :=
  ∀ s t : State, s.curCol ≤ 83 → s.curRow ≤ 5 →
    (∀ i, exec i s = .next t → t.curCol ≤ 83 ∧ t.curRow ≤ 5) ∧
    (step s = .next t → t.curCol ≤ 83 ∧ t.curRow ≤ 5)

/-- R21, R25, R28, R30, R31, R33, R62, R231, R317: a command writes the framebuffer, the cursor, STATUS, the streams, the
EEPROM, the ports and the panel only where the rules of that command say so. -/
def Obligations.OnlyNamedCommandsWrite : Prop :=
  ∀ (i : Instr) (s t : State), exec i s = .next t →
    (mayWriteVram i = false → t.vram = s.vram) ∧
    (mayMoveCursor i = false → t.curCol = s.curCol ∧ t.curRow = s.curRow) ∧
    (mayWriteStatus i = false → t.status = s.status) ∧
    (takesPayload i = false → t.cmd = s.cmd) ∧
    (responds i = false → t.rsp = s.rsp) ∧
    (mayWriteEeprom i = false → t.ee = s.ee) ∧
    (usesBus i = false → t.bus = s.bus ∧ t.draws = s.draws) ∧
    (usesPanel i = false → t.panel = s.panel ∧ t.chipSelect = s.chipSelect) ∧
    (usesBus i = false → usesPanel i = false →
      t.ports = s.ports ∧ t.portPlan = s.portPlan ∧ t.resetIn = s.resetIn) ∧
    (takesPayload i = false → usesBus i = false → usesPanel i = false → t.parser = s.parser) ∧
    (mnemonic i ≠ "DRAWLARGE" → t.faultMark = s.faultMark) ∧
    t.params = s.params ∧ t.device = s.device ∧ t.busEnabled = s.busEnabled

/-- R7, R30, R31, R231, R287: no step, RESET included, changes a glyph table or a parameter, enables or disables
the EEPROM bus, or clears the fault mark (that RESET keeps the mark is entry 9; that the bus enable and the
device are fields of State is entries 22 and 7). -/
def Obligations.TablesAndFaultMarkLast : Prop :=
  ∀ s t : State, step s = .next t →
    t.params = s.params ∧ t.device = s.device ∧ t.busEnabled = s.busEnabled ∧
      (s.faultMark = true → t.faultMark = true)

/-- R28, R281, R286: while an error is recorded, STATUS keeps its value; only CLRERR, or RESET, changes it. -/
def Obligations.FirstErrorIsKept : Prop :=
  ∀ s t : State, statusErr s.status = true → s.resetIn = false → step s = .next t →
    t.status = s.status ∨
      (t.status = 0#8 ∧ ∃ got h rest, headerArrives s got h rest ∧
        decodeWord (wordOfBytes (got ++ h)) = .instr .clrErr)

/-! ## Errors, status and RESET -/

/-- R281: raising an error writes STATUS alone; ERRCODE takes the code only if ERR was 0, and ERR becomes 1. The
codes are the numbers of R282. -/
def Obligations.RaiseRecordsFirstError : Prop :=
  ∀ (e : CmdError) (code : BitVec 4) (s : State),
    (e, code) ∈ [(.illegalOpcode, 1#4), (.reservedBits, 2#4), (.badGlyph, 3#4)] →
    s.raise e = s.setStatus (s.raise e).status ∧
    (statusErr s.status = true → s.raise e = s) ∧
    (statusErr s.status = false →
      statusErr (s.raise e).status = true ∧ statusCode (s.raise e).status = code ∧
        statusReserved (s.raise e).status = statusReserved s.status)

/-- R261: GETSTATUS responds STATUS, the cursor's column and its row, and clears nothing. -/
def Obligations.GetStatusReports : Prop :=
  ∀ s : State, s.curCol ≤ 83 → s.curRow ≤ 5 →
    ∃ c r : Byte, c.toNat = s.curCol ∧ r.toNat = s.curRow ∧
      exec .getStatus s = .next (s.setRsp (s.rsp ++ [s.status, c, r]))

/-- R262, R286: CLRERR writes STATUS 0x00 and nothing else. -/
def Obligations.ClrErrClearsStatus : Prop :=
  ∀ s : State, exec .clrErr s = .next (s.setStatus 0x00#8)

/-- R310, R311, R312: RESET, at any point of any command, leaves every register at its reset value, keeps
the tables, the parameters and what is outside the FBC, but for the one EEPROM byte whose write it cut. The
model's choices: serving RESET releases its input (entry 11) and shows no event on the ports (entry 21). -/
def Obligations.ResetServed : Prop :=
  ∀ s : State, s.resetIn = true →
    ∃ t, step s = .next t ∧ t.curCol = 0 ∧ t.curRow = 0 ∧ t.status = 0x00#8 ∧ t.parser = .idle ∧ t.bus = .idle ∧
      t.chipSelect = false ∧ t.cmd = [] ∧ t.rsp = [] ∧ t.params = s.params ∧ t.panel = s.panel ∧
      t.ports = s.ports ∧ t.resetIn = false ∧
      ∀ a, (∀ d n, s.bus ≠ .writing a d n) → t.eeByte a = s.eeByte a

/-! ## Framebuffer -/

/-- R53: the pixel write changes one bit of one byte when the pixel is in range, and nothing otherwise. -/
def Obligations.PixelWriteChangesOneBit : Prop :=
  ∀ (x y : Int) (on : Bool) (v : Vram),
    (0 ≤ x ∧ x < 84 ∧ 0 ≤ y ∧ y < 48 →
      (∀ b : Nat, b < 8 →
        (vramRead (pix x y on v) (y / 8 * 84 + x).toNat).getLsbD b =
          if (b : Int) = y % 8 then on else (vramRead v (y / 8 * 84 + x).toNat).getLsbD b) ∧
      ∀ i : Nat, (i : Int) ≠ y / 8 * 84 + x → vramRead (pix x y on v) i = vramRead v i) ∧
    (¬(0 ≤ x ∧ x < 84 ∧ 0 ≤ y ∧ y < 48) → pix x y on v = v)

/-- R21, R52: every pixel of the screen is exactly one bit of exactly one byte, and every bit is a pixel. -/
def Obligations.EveryBitIsOnePixel : Prop :=
  ∀ i b : Nat, i < 504 → b < 8 →
    ∃ x y : Int, (0 ≤ x ∧ x < 84 ∧ 0 ≤ y ∧ y < 48) ∧
      (∀ v, pixRead v x y = (vramRead v i).getLsbD b) ∧ pixIndex x y = i ∧ pixBit y = b ∧
      ∀ x' y' : Int, 0 ≤ x' ∧ x' < 84 ∧ 0 ≤ y' ∧ y' < 48 → pixIndex x' y' = i → pixBit y' = b → x' = x ∧ y' = y

/-- R110: CLEAR writes 0x00 to all 504 bytes and changes nothing else. -/
def Obligations.ClearZeroesEveryByte : Prop :=
  ∀ s : State, ∃ v, exec .clear s = .next (s.setVram v) ∧ ∀ k, k < 504 → vramRead v k = 0x00#8

/-- R111, R140, R141: SETPIXEL and PLOT are alike: they write the one pixel they name, and nothing when it is off the
screen. -/
def Obligations.SetPixelAndPlotWriteOnePixel : Prop :=
  ∀ (s : State) (x y : Byte) (on : Bool),
    Draws s (.setPixel x y on) on (fun px py => px = x.toNat ∧ py = y.toNat) ∧
    exec (.plot x y on) s = exec (.setPixel x y on) s ∧
    (84 ≤ x.toNat ∨ 48 ≤ y.toNat → exec (.setPixel x y on) s = .next s)

/-- R112: INVERT flips every pixel, and a second one restores the framebuffer exactly. -/
def Obligations.InvertFlipsEveryPixel : Prop :=
  ∀ s : State, ∃ v, exec .invert s = .next (s.setVram v) ∧
    (∀ x y : Int, 0 ≤ x → x < 84 → 0 ≤ y → y < 48 → pixRead v x y = !pixRead s.vram x y) ∧
    exec .invert (s.setVram v) = .next s

/-- R55, R113: SERIALIZE responds the 504 bytes in index order and changes nothing else. -/
def Obligations.SerializeSendsIndexOrder : Prop :=
  ∀ s : State, ∃ bytes : List Byte,
    bytes.length = 504 ∧ (∀ k, k < 504 → bytes[k]? = some (vramRead s.vram k)) ∧
      exec .serialize s = .next (s.setRsp (s.rsp ++ bytes))

/-- R114: LOADBITMAP takes exactly 504 payload bytes, byte `k` becomes `VRAM[k]`, and a SERIALIZE after it
responds the same bytes. -/
def Obligations.LoadBitmapThenSerialize : Prop :=
  ∀ (s : State) (image rest : List Byte), image.length = 504 → s.cmd = image ++ rest →
    ∃ v, exec .loadBitmap s = .next ((s.setCmd rest).setVram v) ∧
      (∀ k, k < 504 → image[k]? = some (vramRead v k)) ∧
      exec .serialize ((s.setCmd rest).setVram v) =
        .next (((s.setCmd rest).setVram v).setRsp (s.rsp ++ image))

/-- R55, R115, R116: FLUSH sends the bytes SERIALIZE would respond, in one chip-select frame, and the panel
then shows the framebuffer; nothing else changes. (The display link has no handshake: only RESET, not a
stuck bus, could cut the frame.) -/
def Obligations.FlushSendsOneFrame : Prop :=
  ∀ s : State, (∀ n, s.portPlan ≠ .resetAfter n) →
    ∃ bytes : List Byte, bytes.length = 504 ∧ (∀ k, k < 504 → bytes[k]? = some (vramRead s.vram k)) ∧
      exec .serialize s = .next (s.setRsp (s.rsp ++ bytes)) ∧
      exec .flush s =
        .next (((s.setPorts (s.ports ++ (.panelSelect true :: bytes.map .panelTx ++ [.panelSelect false]))).setPanel
          s.vram).setChipSelect false)

/-! ## Rasterizer -/

/-- R142: the Bresenham line in closed form. On an x-major line (ties are x-major) the point at step `n` has
`x = x1 + sx × n` and `y = y1 + sy × floor(n × dy / dx + 1/2)`; on a y-major line the axes are exchanged. -/
def Obligations.LinePointsClosedForm : Prop :=
  ∀ x1 y1 x2 y2 : Int,
    (axisDist y1 y2 ≤ axisDist x1 x2 →
      linePts x1 y1 x2 y2 = (List.range ((axisDist x1 x2).toNat + 1)).map fun n =>
        (x1 + (if x1 > x2 then -1 else 1) * (n : Int),
          y1 + (if y1 > y2 then -1 else 1) *
            ((2 * (n : Int) * axisDist y1 y2 + axisDist x1 x2) / (2 * axisDist x1 x2)))) ∧
    (axisDist x1 x2 < axisDist y1 y2 →
      linePts x1 y1 x2 y2 = (List.range ((axisDist y1 y2).toNat + 1)).map fun n =>
        (x1 + (if x1 > x2 then -1 else 1) *
            ((2 * (n : Int) * axisDist x1 x2 + axisDist y1 y2) / (2 * axisDist y1 y2)),
          y1 + (if y1 > y2 then -1 else 1) * (n : Int)))

/-- R142: a line has `max(dx, dy) + 1` points, the first and the last are its ends, and consecutive points
differ by one step on the major axis and by 0 or 1 on the minor axis. -/
def Obligations.LineJoinsItsEnds : Prop :=
  ∀ x1 y1 x2 y2 : Int,
    ((linePts x1 y1 x2 y2).length : Int) = max (axisDist x1 x2) (axisDist y1 y2) + 1 ∧
    (linePts x1 y1 x2 y2).head? = some (x1, y1) ∧ (linePts x1 y1 x2 y2).getLast? = some (x2, y2) ∧
    ∀ (n : Nat) (p q : Int × Int), (linePts x1 y1 x2 y2)[n]? = some p → (linePts x1 y1 x2 y2)[n + 1]? = some q →
      if axisDist y1 y2 ≤ axisDist x1 x2 then axisDist p.1 q.1 = 1 ∧ axisDist p.2 q.2 ≤ 1
      else axisDist p.2 q.2 = 1 ∧ axisDist p.1 q.1 ≤ 1

/-- R140, R143: LINE writes exactly the points of the line that are on the screen. -/
def Obligations.LineDrawsItsPoints : Prop :=
  ∀ (s : State) (x1 y1 x2 y2 : Byte) (on : Bool),
    Draws s (.line x1 y1 x2 y2 on) on (fun x y => (x, y) ∈ linePts x1.toNat y1.toNat x2.toNat y2.toNat)

/-- R144: the filled RECT covers the box of its corners, both included, in whichever order they come; the outline its
boundary. -/
def Obligations.RectCoversBoxOrBoundary : Prop :=
  ∀ (s : State) (x1 y1 x2 y2 : Byte) (on : Bool),
    Draws s (.rect x1 y1 x2 y2 true on) on
      (fun x y => between x1.toNat x2.toNat x ∧ between y1.toNat y2.toNat y) ∧
    Draws s (.rect x1 y1 x2 y2 false on) on
      (fun x y => between x1.toNat x2.toNat x ∧ between y1.toNat y2.toNat y ∧
        (x = x1.toNat ∨ x = x2.toNat ∨ y = y1.toNat ∨ y = y2.toNat))

/-- R145: BAR paints, for each point of the line, the pixels at offsets `−(w div 2) ≤ j < (w div 2) + (w mod
2)` along the minor axis; width 0 paints nothing and width 1 is LINE. -/
def Obligations.BarPaintsOffsets : Prop :=
  ∀ (s : State) (x1 y1 x2 y2 w : Byte) (on : Bool),
    Draws s (.bar x1 y1 x2 y2 w on) on
      (fun x y => ∃ p ∈ linePts x1.toNat y1.toNat x2.toNat y2.toNat, ∃ j : Int,
        -((w.toNat : Int) / 2) ≤ j ∧ j < (w.toNat : Int) / 2 + (w.toNat : Int) % 2 ∧
        (x, y) = if axisDist y1.toNat y2.toNat ≤ axisDist x1.toNat x2.toNat then (p.1, p.2 + j) else (p.1 + j, p.2)) ∧
    exec (.bar x1 y1 x2 y2 0 on) s = .next s ∧
    exec (.bar x1 y1 x2 y2 1 on) s = exec (.line x1 y1 x2 y2 on) s

/-- R146: the pairs of `CircleSteps(r)` are `(0, r), (1, b1), (2, b2), …` with `a ≤ b`, each on the circle
to within half a pixel, `b² − b < r² − a² ≤ b² + b` (for `r = 0` the lower bound is met with equality), which
leaves one `b` for each `a`. They end only where no pair `(a + 1, b')` with `a + 1 ≤ b'` meets these bounds: the
next `a` would pass the next `b`. -/
def Obligations.CircleStepsFollowTheCircle : Prop :=
  ∀ r : Nat,
    (circleSteps r).head? = some (0, (r : Int)) ∧
    (∀ (n : Nat) (a b : Int), (circleSteps r)[n]? = some (a, b) →
      a = n ∧ a ≤ b ∧ b * b - b ≤ (r : Int) * r - a * a ∧ (0 < r → b * b - b < (r : Int) * r - a * a) ∧
        (r : Int) * r - a * a ≤ b * b + b) ∧
    ∀ a b : Int, (circleSteps r).getLast? = some (a, b) →
      b ≤ a + 1 ∧ ∀ b' : Int, a + 1 ≤ b' → ¬b' * b' - b' < (r : Int) * r - (a + 1) * (a + 1)

/-- R147: the outline CIRCLE writes the 8 points `(cx ± a, cy ± b)`, `(cx ± b, cy ± a)` of every step that
are on the screen, the filled one the spans that join them. -/
def Obligations.CircleDrawsPointsOrSpans : Prop :=
  ∀ (s : State) (cx cy r : Byte) (on : Bool),
    Draws s (.circle cx cy r false on) on
      (fun x y => ∃ p ∈ circleSteps r.toNat,
        (axisDist cx.toNat x = p.1 ∧ axisDist cy.toNat y = p.2) ∨
          (axisDist cx.toNat x = p.2 ∧ axisDist cy.toNat y = p.1)) ∧
    Draws s (.circle cx cy r true on) on
      (fun x y => ∃ p ∈ circleSteps r.toNat,
        (axisDist cx.toNat x ≤ p.1 ∧ axisDist cy.toNat y = p.2) ∨
          (axisDist cx.toNat x ≤ p.2 ∧ axisDist cy.toNat y = p.1))

/-- R147 and §8 of the source (vector S3): every point of the outline is a point of the filled circle. -/
def Obligations.CircleOutlineInsideFill : Prop :=
  ∀ (cx cy r : Int) (p : Int × Int), p ∈ circlePts cx cy r false → p ∈ circlePts cx cy r true

/-! ## Text -/

/-- R181: GOTOXY saturates each coordinate at its upper bound and changes nothing else. -/
def Obligations.GotoXYSaturates : Prop :=
  ∀ (s : State) (col row : Byte),
    ∃ c r : Nat, exec (.gotoXY col row) s = .next (s.setCursor c r) ∧
      c = (if 84 ≤ col.toNat then 83 else col.toNat) ∧ r = (if 6 ≤ row.toNat then 5 else row.toNat)

/-- R182, R183: newline moves the cursor to column 0 of the next row, the last row wrapping to row 0; a code
that is neither newline nor backspace nor printable changes nothing. -/
def Obligations.DrawCharNewlineOrDropped : Prop :=
  ∀ s : State,
    exec (.drawChar 0x0A) s = .next (s.setCursor 0 ((s.curRow + 1) % 6)) ∧
    ∀ code : Byte, code ≠ 0x0A#8 → code ≠ 0x08#8 → code.toNat < 0x20 ∨ 0x80 ≤ code.toNat →
      exec (.drawChar code) s = .next s

/-- R182, R183: backspace moves the cursor back 6 columns, or to column 78 of the previous row (row 0 wraps
to row 5), and blanks the 6 columns there. -/
def Obligations.DrawCharBackspace : Prop :=
  ∀ s : State, s.curRow ≤ 5 →
    ∃ v c r, exec (.drawChar 0x08) s = .next ((s.setVram v).setCursor c r) ∧
      c = (if 6 ≤ s.curCol then s.curCol - 6 else 78) ∧
      r = (if 6 ≤ s.curCol then s.curRow else if s.curRow = 0 then 5 else s.curRow - 1) ∧
      ColumnsReplaced r c 6 (fun _ => 0x00#8) s.vram v

/-- R180, R182, R183: a printable code writes its 5 glyph columns and a blank one at the cursor, drops what
falls past column 83, and advances the cursor by 6, wrapping to column 0 of the next row. -/
def Obligations.DrawCharPrintable : Prop :=
  ∀ (s : State) (code : Byte), 0x20 ≤ code.toNat → code.toNat ≤ 0x7F →
    ∃ v, exec (.drawChar code) s =
        .next ((s.setVram v).setCursor (advancedCol s.curCol 6) (advancedRow s.curCol s.curRow 6)) ∧
      ColumnsReplaced s.curRow s.curCol 6
        (fun k => if k = 5 then 0x00#8 else s.params.glyph5[(code.toNat - 0x20) * 5 + k]?.getD 0#8) s.vram v

/-- R84, R184: DRAWSTRING is DRAWCHAR of each payload byte before the first 0x00, which is consumed and not drawn. -/
def Obligations.DrawStringIsDrawCharEach : Prop :=
  ∀ (s : State) (text rest : List Byte), 0#8 ∉ text → s.cmd = text ++ 0#8 :: rest →
    ∃ t, drawEach text s = .next t ∧ exec .drawString s = .next (t.setCmd rest)

/-- R185: the map from codes to the symbols of the large-digit alphabet. -/
def Obligations.LargeSymbolAlphabet : Prop :=
  ∀ code : Byte,
    (largeSymbol code = some .minus ↔ code = 0x2D#8) ∧ (largeSymbol code = some .dot ↔ code = 0x2E#8) ∧
    (largeSymbol code = some .space ↔ code = 0x20#8) ∧
    (∀ d : Fin 10, largeSymbol code = some (.digit d) ↔ code.toNat = 0x30 + d.val) ∧
    (largeSymbol code = none ↔ badGlyphCode code)

/-- R32, R180, R186: DRAWLARGE of a code of the alphabet writes its pattern into two pages at the cursor, 5
columns for '.', 10 for every other symbol, drops what falls off the screen, and advances the cursor by that
width. -/
def Obligations.DrawLargeWritesTwoPages : Prop :=
  ∀ (s : State) (code : Byte) (pos w : Nat), (code, pos) ∈ largeAlphabet → w = (if code = 0x2E#8 then 5 else 10) →
    ∃ u v, exec (.drawLarge code) s =
        .next ((s.setVram v).setCursor (advancedCol s.curCol w) (advancedRow s.curCol s.curRow w)) ∧
      ColumnsReplaced s.curRow s.curCol w (fun k => s.params.large[pos * 20 + k]?.getD 0#8) s.vram u ∧
      ColumnsReplaced (s.curRow + 1) s.curCol w (fun k => s.params.large[pos * 20 + 10 + k]?.getD 0#8) u v

/-- R186, R281, R287: a code outside the alphabet raises BAD_GLYPH; under the policy `blank` it draws a
blank cell of 10 columns on two pages and advances by 10, under `fault` it draws nothing and sets the fault
mark. -/
def Obligations.DrawLargeBadGlyph : Prop :=
  ∀ (s : State) (code : Byte), statusLegal s.status = true → badGlyphCode code →
    (s.params.badGlyph = .blank →
      ∃ u v, exec (.drawLarge code) s =
          .next (((s.setVram v).setCursor (advancedCol s.curCol 10) (advancedRow s.curCol s.curRow 10)).setStatus
            (statusAfter 3#4 s.status)) ∧
        ColumnsReplaced s.curRow s.curCol 10 (fun _ => 0x00#8) s.vram u ∧
        ColumnsReplaced (s.curRow + 1) s.curCol 10 (fun _ => 0x00#8) u v) ∧
    (s.params.badGlyph = .fault →
      exec (.drawLarge code) s = .next ((s.setStatus (statusAfter 3#4 s.status)).setFaultMark true))

/-! ## EEPROM -/

/-- R57, R221, R222, R226: EE_READ is one read transaction and responds with the byte the device holds; nothing else
changes. -/
def Obligations.EeReadRespondsByte : Prop :=
  ∀ (s : State) (a : Addr), busWorks s →
    exec (.eeRead a) s =
      .next ((s.setRsp (s.rsp ++ [s.eeByte a])).setPorts (s.ports ++ readTrace s.params a (s.eeByte a)))

/-- R57, R72, R221, R223, R227: EE_WRITE is one write transaction, after which the device holds the byte at
that address and every other address is as before; nothing else changes; a following EE_READ of the address
responds with the byte. -/
def Obligations.EeWriteStoresByte : Prop :=
  ∀ (s : State) (a : Addr) (d : Byte), busWorks s →
    ∃ t, exec (.eeWrite a d) s = .next t ∧ onlyEepromCommand s t ∧ t.cmd = s.cmd ∧ t.rsp = s.rsp ∧
      t.ports = s.ports ++ writeTrace s.params a d ∧ t.eeByte a = d ∧ (∀ b, b ≠ a → t.eeByte b = s.eeByte b) ∧
      ∃ u, exec (.eeRead a) t = .next u ∧ u.rsp = s.rsp ++ [d]

/-- R64, R84, R228: EE_WRITESTR consumes its `LEN` payload bytes, stores the text up to its first 0x00, or
all of it, at increasing addresses modulo 2^16, then a 0x00, one transaction a byte; every other address is
as before. -/
def Obligations.EeWriteStrStoresText : Prop :=
  ∀ (s : State) (a len : Addr) (payload rest : List Byte), busWorks s → payload.length = len.toNat →
    s.cmd = payload ++ rest →
    ∃ t text, text = payload.takeWhile (· ≠ 0#8) ∧ exec (.eeWriteStr a len) s = .next t ∧ onlyEepromCommand s t ∧
      t.cmd = rest ∧ t.rsp = s.rsp ∧
      t.ports = s.ports ++ (text ++ [0#8]).zipIdx.flatMap (fun p => writeTrace s.params (addrAfter a p.2) p.1) ∧
      (∀ k b, (text ++ [0#8])[k]? = some b → t.eeByte (addrAfter a k) = b) ∧
      ∀ b, (∀ k, k ≤ text.length → b ≠ addrAfter a k) → t.eeByte b = s.eeByte b

/-- R64, R229: EE_READSTR reads at increasing addresses modulo 2^16 up to the first 0x00 or 0xFF, and
responds the bytes before it and then one 0x00; nothing else changes. -/
def Obligations.EeReadStrSendsRun : Prop :=
  ∀ (s : State) (a : Addr) (n : Nat), busWorks s → n < 65536 →
    (∀ k, k < n → s.eeByte (addrAfter a k) ≠ 0x00#8 ∧ s.eeByte (addrAfter a k) ≠ 0xFF#8) →
    (s.eeByte (addrAfter a n) = 0x00#8 ∨ s.eeByte (addrAfter a n) = 0xFF#8) →
      exec (.eeReadStr a) s =
        .next ((s.setRsp (s.rsp ++ (List.range n).map (fun k => s.eeByte (addrAfter a k)) ++ [0x00#8])).setPorts
          (s.ports ++ (List.range (n + 1)).flatMap fun k =>
            readTrace s.params (addrAfter a k) (s.eeByte (addrAfter a k))))

/-- R229, R319: over an EEPROM with no 0x00 and no 0xFF, EE_READSTR reads for ever and nothing but reads and
responses happens: `n` more steps, for every `n`, are `n` more rounds of all 65536 addresses and leave the
command where it stood. The second clause holds for every state that stands in the command, so whatever the
host sent meanwhile. (That one step is one round is entry 5.) -/
def Obligations.EeReadStrCanReadForEver : Prop :=
  ∀ (s : State) (a : Addr), busWorks s → s.resetIn = false →
    (∀ b, s.eeByte b ≠ 0x00#8 ∧ s.eeByte b ≠ 0xFF#8) →
    exec (.eeReadStr a) s =
      .next ((readRounds a 1 s).setParser (.exec (encodeWord (.eeReadStr a)) (.eeReadStr a))) ∧
    ∀ cw, s.parser = .exec cw (.eeReadStr a) → ∀ n, steps n s = .next (readRounds a n s)

/-- R228, R229 (the round trip of the source's §8): a text without 0x00 and 0xFF that EE_WRITESTR stored is
what EE_READSTR from the same address responds, followed by one 0x00. -/
def Obligations.EepromStringRoundTrip : Prop :=
  ∀ (s : State) (a len : Addr) (text rest : List Byte), busWorks s → text.length = len.toNat →
    0x00#8 ∉ text → 0xFF#8 ∉ text → s.cmd = text ++ rest →
    ∃ t u, exec (.eeWriteStr a len) s = .next t ∧ exec (.eeReadStr a) t = .next u ∧
      u.rsp = s.rsp ++ text ++ [0x00#8] ∧ u.ee = t.ee ∧ onlyEepromCommand s u ∧ u.cmd = rest

/-- R230: EE_ZERO stores 0x00 at every address of `[from, to)`, in increasing order, one transaction each,
and leaves every other address as it was; an empty range does nothing. -/
def Obligations.EeZeroZeroesRange : Prop :=
  ∀ (s : State) (first limit : Addr), busWorks s →
    ∃ t, exec (.eeZero first limit) s = .next t ∧ onlyEepromCommand s t ∧ t.cmd = s.cmd ∧ t.rsp = s.rsp ∧
      t.ports = s.ports ++ (List.range (limit.toNat - first.toNat)).flatMap
        (fun k => writeTrace s.params (addrAfter first k) 0x00#8) ∧
      (∀ b : Addr, t.eeByte b =
        if first.toNat ≤ b.toNat ∧ b.toNat < limit.toNat then 0x00#8 else s.eeByte b) ∧
      (limit.toNat ≤ first.toNat → t = s)

/-- R232: a bus event that never completes, be it any event of any EE_ command, leaves the FBC in the middle
of that command for ever. The transactions before it keep the effect that R72 and R222 to R230 give them; of
the one it belongs to nothing is responded or, as entry 8 reads R72, stored; STATUS and everything else is as
before; RESET ends it. (A bus that is not enabled is DisabledBusStopsEveryEeCommand.) The model's choices: the
plan `stuckAfter n` says which event (entry 6), a step of EE_READSTR makes 65536 read transactions (entry 5),
so that a later event of it comes in a later step, where no device takes part the completed transactions
stored nothing (entry 7), and a step of the FBC that holds answers the same state (entry 4). -/
def Obligations.StuckBusHoldsUntilReset : Prop :=
  ∀ (i : Instr) (s : State) (n : Nat), s.busEnabled = true → s.portPlan = .stuckAfter n → s.resetIn = false →
    drivesEvent s n i →
    ∃ r t u, exec i s = .next r ∧ steps (n / (9 * 65536)) r = .next t ∧ t.parser = .exec (encodeWord i) .port ∧
      t = { s with
        parser := t.parser, bus := t.bus, cmd := t.cmd, ports := t.ports, portPlan := t.portPlan,
        rsp := s.rsp ++ respondedBefore s n i, ee := t.ee, draws := t.draws } ∧
      t.ports.length = s.ports.length + (n + 1) ∧
      (s.device = .silent → t.ee = s.ee) ∧
      (s.device = .present → Memory.wf s.params.eeErased s.ee = true →
        storesAt (bytesToWrite s i).1 ((bytesToWrite s i).2.take (n / 7)) s t) ∧
      heldForEver t ∧ step t.assertReset = .next u ∧ u.parser = .idle

/-- R231, R232, R319: with the bus not enabled, every EE_ command hangs, an EE_ZERO with an empty range
included: nothing is responded or stored, STATUS is as before, no step changes anything whatever the host
sends, and only RESET ends it. An EE_WRITESTR that has to wait for its payload first hangs when the payload is
there. The model's choices: the enable is a field of State and the event that does not complete is the first
one, none for the empty range (entry 22); a step of the FBC that holds answers the same state (entry 4); a
plan may bring RESET before that event (entries 6 and 13). -/
def Obligations.DisabledBusStopsEveryEeCommand : Prop :=
  ∀ (i : Instr) (s : State), s.busEnabled = false → s.portPlan ≠ .resetAfter 0 → s.resetIn = false →
    usesBus i = true →
    (waitsForPayload s i = false →
      ∃ t u, exec i s = .next t ∧ t.parser = .exec (encodeWord i) .port ∧ t.ports = s.ports ++ firstEvents i ∧
        t.ee = s.ee ∧ t.rsp = s.rsp ∧ t.status = s.status ∧ heldForEver t ∧
        step t.assertReset = .next u ∧ u.parser = .idle) ∧
    (waitsForPayload s i = true →
      ∃ t, exec i s = .next t ∧ waitsForBytes t.parser = true ∧ t.ports = s.ports ∧ t.ee = s.ee ∧ t.rsp = s.rsp ∧
        t.status = s.status ∧ step t = .next t ∧
        ∀ bs, payloadLength i ≤ s.cmd.length + bs.length →
          ∃ u, step (t.hostSend bs) = .next u ∧ u.parser = .exec (encodeWord i) .port ∧
            u.ports = s.ports ++ [.busStart] ∧ u.ee = s.ee ∧ u.rsp = s.rsp ∧ u.status = s.status ∧ heldForEver u)

/-- R224: where no device takes part, a transaction runs as ever, raises nothing and leaves STATUS
unchanged; a read responds with whatever the bus returned. (That nothing is stored then is entry 7.) -/
def Obligations.SilentDeviceIsNotAnError : Prop :=
  ∀ (s : State) (a : Addr) (d : Byte), s.busEnabled = true → s.portPlan = .free → s.device = .silent →
    exec (.eeWrite a d) s = .next (s.setPorts (s.ports ++ writeTrace s.params a d)) ∧
    ∃ r n, exec (.eeRead a) s =
      .next (((s.setRsp (s.rsp ++ [r])).setPorts (s.ports ++ readTrace s.params a r)).setDraws n)

/-- R59, R310, R311, R312: RESET in the middle of an EE_ZERO, after `k` whole transactions and `m` events of
the next one: the first `k` addresses keep their new value, the byte of the cut transaction may be anything,
every other byte is as before, and the FBC is idle. The model's choices: RESET comes before a port event
(entry 13), the plan that says which is used up then (entry 6), and the byte of a transaction of which no
event came is as before (entry 8). -/
def Obligations.ResetCutsEeZero : Prop :=
  ∀ (s : State) (first limit : Addr) (k m : Nat),
    s.busEnabled = true → s.device = .present → Memory.wf s.params.eeErased s.ee = true → m < 7 →
    first.toNat + k < limit.toNat → s.portPlan = .resetAfter (7 * k + m) →
    ∃ t u, exec (.eeZero first limit) s = .next t ∧ step t = .next u ∧ u.parser = .idle ∧ u.bus = .idle ∧
      u.portPlan = .free ∧ u.rsp = [] ∧
      ∀ b : Addr,
        (first.toNat ≤ b.toNat ∧ b.toNat < first.toNat + k → u.eeByte b = 0x00#8) ∧
        (b.toNat < first.toNat ∨ first.toNat + k < b.toNat ∨ (b.toNat = first.toNat + k ∧ m = 0) →
          u.eeByte b = s.eeByte b)

/-- R59, R227, R228, R310 to R312: RESET in the middle of an EE_WRITE after `m` events of its transaction, or of
an EE_WRITESTR after `k` whole transactions and `m` events of the next one, be it of a text byte or of the
terminator: the bytes of the whole transactions are stored, the byte of the cut one may be anything, every
other byte is as before, both streams are empty and the FBC is idle. The model's choices are those of
ResetCutsEeZero: entries 6, 8 and 13. -/
def Obligations.ResetCutsEeWriteAndEeWriteStr : Prop :=
  ∀ (s : State) (a : Addr), s.busEnabled = true → s.device = .present → Memory.wf s.params.eeErased s.ee = true →
    (∀ (d : Byte) (m : Nat), m < 7 → s.portPlan = .resetAfter m →
      ∃ t u, exec (.eeWrite a d) s = .next t ∧ step t = .next u ∧ u.parser = .idle ∧ u.bus = .idle ∧
        u.portPlan = .free ∧ u.cmd = [] ∧ u.rsp = [] ∧
        ∀ b, b ≠ a ∨ m = 0 → u.eeByte b = s.eeByte b) ∧
    ∀ (len : Addr) (k m : Nat), m < 7 → drivesEvent s (7 * k + m) (.eeWriteStr a len) →
      s.portPlan = .resetAfter (7 * k + m) →
      ∃ t u, exec (.eeWriteStr a len) s = .next t ∧ step t = .next u ∧ u.parser = .idle ∧ u.bus = .idle ∧
        u.portPlan = .free ∧ u.cmd = [] ∧ u.rsp = [] ∧
        (∀ (j : Nat) (b : Byte), j < k → (textOf len s ++ [0x00#8])[j]? = some b → u.eeByte (addrAfter a j) = b) ∧
        ∀ b, (∀ j, j < k → b ≠ addrAfter a j) → b ≠ addrAfter a k ∨ m = 0 → u.eeByte b = s.eeByte b

/-- R33, R115, R116, R310 to R312: RESET in the middle of a FLUSH frame, after `n` of its 506 events: until RESET
is served chip-select is enabled if it was at all, exactly those events were on the link, and nothing else of the
FBC changed; then chip-select is disabled and the FBC idle. The panel image is the framebuffer only if all 504
bytes were sent (R35, as entry 23 reads it). The model's choices: RESET comes before a port event (entry 13), the
plan that says which is used up then (entry 6), and RESET adds no event to the record (entry 21). -/
def Obligations.ResetCutsFlush : Prop :=
  ∀ (s : State) (n : Nat), s.portPlan = .resetAfter n → n < 506 →
    ∃ (bytes : List Byte) (t u : State), bytes.length = 504 ∧ (∀ k, k < 504 → bytes[k]? = some (vramRead s.vram k)) ∧
      exec .flush s = .next t ∧
      t = { s with
        parser := .exec (encodeWord .flush) .port, chipSelect := decide (0 < n),
        ports := s.ports ++ List.take n (.panelSelect true :: bytes.map .panelTx ++ [.panelSelect false]),
        panel := if n = 505 then some s.vram else s.panel, portPlan := .free, resetIn := true } ∧
      step t = .next u ∧ u.parser = .idle ∧ u.chipSelect = false ∧ u.panel = t.panel ∧ u.ports = t.ports ∧
      u.cmd = [] ∧ u.rsp = []
end

