-- ==== Sys2Proof/Laws/Decode.lean ====
section
/-!
SUPPORT. Lemmas about the encoding: the fields of a packed word, bytes and words, splitting a byte list.
-/

namespace Sys2Proof

/-! ## The fields of a packed command word (R81) -/

@[simp] theorem getLsbD_packWord (op : Byte) (on fill : Bool) (a b c d e : Byte) (i : Nat) :
    (packWord op on fill a b c d e).getLsbD i =
      (decide (i < 64) && (op.getLsbD i || (decide (8 ≤ i) && (BitVec.ofBool on).getLsbD (i - 8)) ||
        (decide (9 ≤ i) && (BitVec.ofBool fill).getLsbD (i - 9)) || (decide (16 ≤ i) && a.getLsbD (i - 16)) ||
        (decide (24 ≤ i) && b.getLsbD (i - 24)) || (decide (32 ≤ i) && c.getLsbD (i - 32)) ||
        (decide (40 ≤ i) && d.getLsbD (i - 40)) || (decide (48 ≤ i) && e.getLsbD (i - 48)))) := by
  by_cases h : i < 64
  · simp only [packWord, placeField, BitVec.getLsbD_or, BitVec.getLsbD_shiftLeft, BitVec.getLsbD_setWidth, h]
    have : ∀ k, i - k < 64 := fun k => by omega
    simp [this, h, ← decide_not]
  · simp [h, BitVec.getLsbD_of_ge _ _ (Nat.le_of_not_lt h)]

@[simp] theorem cwOp_packWord (op : Byte) (on fill : Bool) (a b c d e : Byte) :
    cwOp (packWord op on fill a b c d e) = op := by
  apply BitVec.eq_of_getLsbD_eq
  intro i hi
  simp only [cwOp, BitVec.getLsbD_extractLsb', getLsbD_packWord]
  interval_cases i <;> simp

@[simp] theorem cwOn_packWord (op : Byte) (on fill : Bool) (a b c d e : Byte) :
    cwOn (packWord op on fill a b c d e) = on := by
  simp only [cwOn, getLsbD_packWord]
  simp

@[simp] theorem cwFill_packWord (op : Byte) (on fill : Bool) (a b c d e : Byte) :
    cwFill (packWord op on fill a b c d e) = fill := by
  simp only [cwFill, getLsbD_packWord]
  simp [BitVec.getLsbD_of_ge]

@[simp] theorem cwReservedLow_packWord (op : Byte) (on fill : Bool) (a b c d e : Byte) :
    cwReservedLow (packWord op on fill a b c d e) = 0#6 := by
  apply BitVec.eq_of_getLsbD_eq
  intro i hi
  simp only [cwReservedLow, BitVec.getLsbD_extractLsb', getLsbD_packWord]
  interval_cases i <;> simp

@[simp] theorem cwReservedHigh_packWord (op : Byte) (on fill : Bool) (a b c d e : Byte) :
    cwReservedHigh (packWord op on fill a b c d e) = 0#8 := by
  apply BitVec.eq_of_getLsbD_eq
  intro i hi
  simp only [cwReservedHigh, BitVec.getLsbD_extractLsb', getLsbD_packWord]
  interval_cases i <;> simp [BitVec.getLsbD_of_ge]

@[simp] theorem cwA_packWord (op : Byte) (on fill : Bool) (a b c d e : Byte) :
    cwA (packWord op on fill a b c d e) = a := by
  apply BitVec.eq_of_getLsbD_eq
  intro i hi
  simp only [cwA, BitVec.getLsbD_extractLsb', getLsbD_packWord]
  interval_cases i <;> simp [BitVec.getLsbD_of_ge]

@[simp] theorem cwB_packWord (op : Byte) (on fill : Bool) (a b c d e : Byte) :
    cwB (packWord op on fill a b c d e) = b := by
  apply BitVec.eq_of_getLsbD_eq
  intro i hi
  simp only [cwB, BitVec.getLsbD_extractLsb', getLsbD_packWord]
  interval_cases i <;> simp [BitVec.getLsbD_of_ge]

@[simp] theorem cwC_packWord (op : Byte) (on fill : Bool) (a b c d e : Byte) :
    cwC (packWord op on fill a b c d e) = c := by
  apply BitVec.eq_of_getLsbD_eq
  intro i hi
  simp only [cwC, BitVec.getLsbD_extractLsb', getLsbD_packWord]
  interval_cases i <;> simp [BitVec.getLsbD_of_ge]

@[simp] theorem cwD_packWord (op : Byte) (on fill : Bool) (a b c d e : Byte) :
    cwD (packWord op on fill a b c d e) = d := by
  apply BitVec.eq_of_getLsbD_eq
  intro i hi
  simp only [cwD, BitVec.getLsbD_extractLsb', getLsbD_packWord]
  interval_cases i <;> simp [BitVec.getLsbD_of_ge]

@[simp] theorem cwE_packWord (op : Byte) (on fill : Bool) (a b c d e : Byte) :
    cwE (packWord op on fill a b c d e) = e := by
  apply BitVec.eq_of_getLsbD_eq
  intro i hi
  simp only [cwE, BitVec.getLsbD_extractLsb', getLsbD_packWord]
  interval_cases i <;> simp [BitVec.getLsbD_of_ge]

/-- `ADDR = {B, A}` (R81). -/
@[simp] theorem cwAddr_packWord (op : Byte) (on fill : Bool) (a b c d e : Byte) :
    cwAddr (packWord op on fill a b c d e) = b ++ a := by
  apply BitVec.eq_of_getLsbD_eq
  intro i hi
  simp only [cwAddr, BitVec.getLsbD_extractLsb', getLsbD_packWord, BitVec.getLsbD_append]
  interval_cases i <;> simp [BitVec.getLsbD_of_ge]

/-- `ADDR2 = {D, C}` (R81). -/
@[simp] theorem cwAddr2_packWord (op : Byte) (on fill : Bool) (a b c d e : Byte) :
    cwAddr2 (packWord op on fill a b c d e) = d ++ c := by
  apply BitVec.eq_of_getLsbD_eq
  intro i hi
  simp only [cwAddr2, BitVec.getLsbD_extractLsb', getLsbD_packWord, BitVec.getLsbD_append]
  interval_cases i <;> simp [BitVec.getLsbD_of_ge]

/-- The two bytes of a 16-bit value put together again (R86). -/
@[simp] theorem highByte_append_lowByte (v : Addr) : (highByte v ++ lowByte v : Addr) = v := by
  apply BitVec.eq_of_getLsbD_eq
  intro i hi
  simp only [highByte, lowByte, BitVec.getLsbD_append, BitVec.getLsbD_extractLsb']
  interval_cases i <;> simp

/-- The bytes of the wide aliases are the operand bytes they are made of (R81). -/
@[simp] theorem lowByte_cwAddr (cw : CmdWord) : lowByte (cwAddr cw) = cwA cw := by
  apply BitVec.eq_of_getLsbD_eq
  intro i hi
  simp only [lowByte, cwAddr, cwA, BitVec.getLsbD_extractLsb']
  interval_cases i <;> simp

@[simp] theorem highByte_cwAddr (cw : CmdWord) : highByte (cwAddr cw) = cwB cw := by
  apply BitVec.eq_of_getLsbD_eq
  intro i hi
  simp only [highByte, cwAddr, cwB, BitVec.getLsbD_extractLsb']
  interval_cases i <;> simp

@[simp] theorem lowByte_cwAddr2 (cw : CmdWord) : lowByte (cwAddr2 cw) = cwC cw := by
  apply BitVec.eq_of_getLsbD_eq
  intro i hi
  simp only [lowByte, cwAddr2, cwC, BitVec.getLsbD_extractLsb']
  interval_cases i <;> simp

@[simp] theorem highByte_cwAddr2 (cw : CmdWord) : highByte (cwAddr2 cw) = cwD cw := by
  apply BitVec.eq_of_getLsbD_eq
  intro i hi
  simp only [highByte, cwAddr2, cwD, BitVec.getLsbD_extractLsb']
  interval_cases i <;> simp

/-- A bit of a word is a bit of the field it stands in (R81). -/
theorem getLsbD_of_field_zero {n : Nat} (cw : CmdWord) (p : Nat) (h : cw.extractLsb' p n = 0#n) {i : Nat}
    (hp : p ≤ i) (hi : i < p + n) : cw.getLsbD i = false := by
  have := congrArg (fun v => v.getLsbD (i - p)) h
  simpa [show i - p < n by omega, show p + (i - p) = i by omega] using this

/-- A command word with its reserved bits 0 is packed from its fields. -/
theorem packWord_fields (cw : CmdWord) (hl : cwReservedLow cw = 0#6) (hh : cwReservedHigh cw = 0#8) :
    packWord (cwOp cw) (cwOn cw) (cwFill cw) (cwA cw) (cwB cw) (cwC cw) (cwD cw) (cwE cw) = cw := by
  have hlow := fun i => getLsbD_of_field_zero (i := i) cw 10 hl
  have hhigh := fun i => getLsbD_of_field_zero (i := i) cw 56 hh
  apply BitVec.eq_of_getLsbD_eq
  intro k hk
  rw [getLsbD_packWord]
  simp only [cwOp, cwOn, cwFill, cwA, cwB, cwC, cwD, cwE, BitVec.getLsbD_extractLsb']
  by_cases h1 : 10 ≤ k ∧ k < 16
  · rw [hlow k h1.1 h1.2]
    obtain ⟨h2, h3⟩ := h1
    interval_cases k <;> simp
  · by_cases h2 : 56 ≤ k
    · rw [hhigh k h2 (by omega)]
      interval_cases k <;> simp
    · interval_cases k <;> first | omega | simp

/-! ## Bytes and words (R56) -/

@[simp] theorem length_bytesOfWord (cw : CmdWord) : (bytesOfWord cw).length = 8 := rfl

/-- A word is read back from its 8 bytes. -/
@[simp] theorem wordOfBytes_bytesOfWord (cw : CmdWord) : wordOfBytes (bytesOfWord cw) = cw := by
  apply BitVec.eq_of_getLsbD_eq
  intro i hi
  simp only [wordOfBytes, bytesOfWord, List.foldr, BitVec.getLsbD_or, BitVec.getLsbD_shiftLeft,
    BitVec.getLsbD_setWidth, BitVec.getLsbD_extractLsb', BitVec.getLsbD_zero]
  interval_cases i <;> simp

/-! ## Splitting a byte list -/

/-- Exactly the first `n` bytes are taken where there are `n` of them. -/
theorem splitBytes_append (h : List Byte) : ∀ rest : List Byte, splitBytes h.length (h ++ rest) = some (h, rest) := by
  induction h with
  | nil => intro rest; rfl
  | cons b bs ih => intro rest; simp [splitBytes, ih rest]

/-- What `splitBytes` answers when it answers. -/
theorem splitBytes_some {n : Nat} {bs h rest : List Byte} (hs : splitBytes n bs = some (h, rest)) :
    bs = h ++ rest ∧ h.length = n := by
  induction n generalizing bs h rest with
  | zero => simp only [splitBytes, Option.some.injEq, Prod.mk.injEq] at hs; obtain ⟨rfl, rfl⟩ := hs; simp
  | succ n ih =>
    cases bs with
    | nil => simp [splitBytes] at hs
    | cons b bs =>
      simp only [splitBytes, Option.map_eq_some_iff, Prod.mk.injEq] at hs
      obtain ⟨p, hp, rfl, rfl⟩ := hs
      obtain ⟨hb, hl⟩ := ih hp
      exact ⟨by simp [hb], by simp [hl]⟩

/-- It answers `none` exactly when there are fewer than `n` bytes. -/
theorem splitBytes_none_iff {n : Nat} {bs : List Byte} : splitBytes n bs = none ↔ bs.length < n := by
  induction n generalizing bs with
  | zero => simp [splitBytes]
  | succ n ih => cases bs <;> simp [splitBytes, ih]

/-- The header and the rest of a packet. -/
@[simp] theorem decode_encode_append (i : Instr) (rest : List Byte) :
    decode (encode i ++ rest) = some (decodeWord (encodeWord i), rest) := by
  have h := splitBytes_append (encode i) rest
  have hl : (encode i).length = 8 := rfl
  rw [hl] at h
  rw [decode, h]
  simp [encode]

end Sys2Proof
end

