-- ==== Sys2Proof/Laws/Memory.lean ====
section
/-!
SUPPORT. The laws of the memories: the EEPROM's cells in canonical form, the framebuffer's bytes, pixels and columns.
-/

namespace Sys2Proof.Machine

/-! ## The EEPROM's cells -/

@[simp] theorem Memory.read_nil (erased : Byte) (a : Nat) : Memory.read erased [] a = erased := rfl

@[simp] theorem Memory.wf_nil (erased : Byte) : Memory.wf erased [] = true := rfl

theorem Memory.wfFrom_cons {erased : Byte} {lo k : Nat} {v : Byte} {m : Memory} :
    Memory.wfFrom erased lo ((k, v) :: m) = true ↔
      lo ≤ k ∧ k < 65536 ∧ v ≠ erased ∧ Memory.wfFrom erased (k + 1) m = true := by
  simp only [Memory.wfFrom, Bool.and_eq_true, decide_eq_true_eq, bne_iff_ne]
  tauto

theorem Memory.wfFrom_mono {erased : Byte} {lo lo' : Nat} {m : Memory} (h : lo' ≤ lo)
    (hm : Memory.wfFrom erased lo m = true) : Memory.wfFrom erased lo' m = true := by
  cases m with
  | nil => rfl
  | cons c m =>
    obtain ⟨h1, h2⟩ := Memory.wfFrom_cons.mp hm
    exact Memory.wfFrom_cons.mpr ⟨h.trans h1, h2⟩

/-- A cell below the first listed address was never written. -/
theorem Memory.read_below {erased : Byte} {lo a : Nat} {m : Memory} (hm : Memory.wfFrom erased lo m = true)
    (ha : a < lo) : Memory.read erased m a = erased := by
  induction m generalizing lo with
  | nil => rfl
  | cons c m ih =>
    obtain ⟨h1, -, -, h4⟩ := Memory.wfFrom_cons.mp hm
    rw [Memory.read, if_neg (by omega)]
    exact ih h4 (by omega)

theorem Memory.read_write_same_from {erased : Byte} {lo a : Nat} {m : Memory} {b : Byte}
    (hm : Memory.wfFrom erased lo m = true) : Memory.read erased (Memory.write erased m a b) a = b := by
  induction m generalizing lo with
  | nil => by_cases h : b = erased <;> simp [Memory.write, Memory.read, h]
  | cons c m ih =>
    obtain ⟨-, -, -, h4⟩ := Memory.wfFrom_cons.mp hm
    obtain ⟨k, v⟩ := c
    rw [Memory.write]
    split
    · rw [Memory.read, if_neg (by omega), ih h4]
    · split
      · next hk =>
        subst hk
        split
        · next hb => rw [Memory.read_below h4 (by omega), hb]
        · simp [Memory.read]
      · split
        · next hb => rw [Memory.read, if_neg (by omega), Memory.read_below h4 (by omega), hb]
        · simp [Memory.read]

/-- A byte written is the byte read (R72). -/
theorem Memory.read_write_same {erased : Byte} {m : Memory} (hm : Memory.wf erased m = true) (a : Nat) (b : Byte) :
    Memory.read erased (Memory.write erased m a b) a = b := Memory.read_write_same_from hm

/-- Every other byte is left alone. -/
theorem Memory.read_write_other (erased : Byte) (m : Memory) {a a' : Nat} (h : a' ≠ a) (b : Byte) :
    Memory.read erased (Memory.write erased m a b) a' = Memory.read erased m a' := by
  induction m with
  | nil => by_cases hb : b = erased <;> simp [Memory.write, Memory.read, hb, Ne.symm h]
  | cons c m ih =>
    obtain ⟨k, v⟩ := c
    rw [Memory.write]
    split
    · simp only [Memory.read, ih]
    · split
      · next hk => split <;> simp [Memory.read, hk, Ne.symm h]
      · split <;> simp [Memory.read, Ne.symm h]

theorem Memory.wfFrom_write {erased : Byte} {lo a : Nat} {m : Memory} {b : Byte}
    (hm : Memory.wfFrom erased lo m = true) (hlo : lo ≤ a) (ha : a < 65536) :
    Memory.wfFrom erased lo (Memory.write erased m a b) = true := by
  induction m generalizing lo with
  | nil =>
    rw [Memory.write]
    split
    · rfl
    · next hb => exact Memory.wfFrom_cons.mpr ⟨hlo, ha, hb, rfl⟩
  | cons c m ih =>
    obtain ⟨k, v⟩ := c
    obtain ⟨h1, h2, h3, h4⟩ := Memory.wfFrom_cons.mp hm
    rw [Memory.write]
    split
    · exact Memory.wfFrom_cons.mpr ⟨h1, h2, h3, ih h4 (by omega)⟩
    · split
      · next hk =>
        split
        · exact Memory.wfFrom_mono (by omega) h4
        · next hb => exact Memory.wfFrom_cons.mpr ⟨hlo, ha, hb, hk ▸ h4⟩
      · split
        · exact hm
        · next hb => exact Memory.wfFrom_cons.mpr ⟨hlo, ha, hb, Memory.wfFrom_cons.mpr ⟨by omega, h2, h3, h4⟩⟩

/-- A write at a 16-bit address keeps the canonical form. -/
theorem Memory.wf_write {erased : Byte} {m : Memory} (hm : Memory.wf erased m = true) (a : Addr) (b : Byte) :
    Memory.wf erased (Memory.write erased m a.toNat b) = true :=
  Memory.wfFrom_write hm (Nat.zero_le _) a.isLt

/-! ## The framebuffer's bytes -/

@[simp] theorem vramRead_vramWrite_same (v : Vram) (i : Nat) (b : Byte) (h : i < 504) :
    vramRead (vramWrite i b v) i = b := by
  simp [vramRead, vramWrite, h]

@[simp] theorem vramRead_vramWrite_other (v : Vram) {i j : Nat} (h : j ≠ i) (b : Byte) :
    vramRead (vramWrite i b v) j = vramRead v j := by
  simp [vramRead, vramWrite, Ne.symm h]

theorem vramRead_eq_getElem (v : Vram) {i : Nat} (h : i < 504) : vramRead v i = v[i] := by
  simp [vramRead, h]

/-- Two framebuffers that read alike are equal. -/
theorem vram_ext {v w : Vram} (h : ∀ i, i < 504 → vramRead v i = vramRead w i) : v = w := by
  ext i hi : 1
  have := h i hi
  rwa [vramRead_eq_getElem v hi, vramRead_eq_getElem w hi] at this

@[simp] theorem vramRead_vramZero (i : Nat) : vramRead vramZero i = 0#8 := by
  unfold vramZero
  by_cases h : i < 504 <;> simp [vramRead, h]

theorem vramRead_vramInvert (v : Vram) {i : Nat} (h : i < 504) :
    vramRead (vramInvert v) i = vramRead v i ^^^ 0xFF#8 := by
  unfold vramInvert
  simp [vramRead, h]

/-! ## Pixels -/

theorem onScreen_iff {x y : Int} : onScreen x y = true ↔ 0 ≤ x ∧ x < 84 ∧ 0 ≤ y ∧ y < 48 := by
  simp [onScreen]

theorem pixIndex_lt {x y : Int} (h : onScreen x y = true) : pixIndex x y < 504 := by
  rw [onScreen_iff] at h
  simp only [pixIndex]
  omega

theorem pixBit_lt (y : Int) : pixBit y < 8 := Nat.mod_lt _ (by decide)

/-- Two pixels of the screen share byte and bit only when they are the same pixel (R21). -/
theorem pixel_place_injective {x y x' y' : Int} (h : onScreen x y = true) (h' : onScreen x' y' = true)
    (hi : pixIndex x y = pixIndex x' y') (hb : pixBit y = pixBit y') : x = x' ∧ y = y' := by
  rw [onScreen_iff] at h h'
  simp only [pixIndex, pixBit] at hi hb
  omega

theorem pix_off {x y : Int} (h : onScreen x y = false) (on : Bool) (v : Vram) : pix x y on v = v := by
  simp [pix, h]

/-- A pixel write sets that pixel (R53). -/
theorem pixRead_pix_same {x y : Int} (h : onScreen x y = true) (on : Bool) (v : Vram) :
    pixRead (pix x y on v) x y = on := by
  have hb := pixBit_lt y
  cases on <;> simp [pixRead, pix, h, pixIndex_lt h, hb]

/-- A pixel write leaves every other pixel alone (R53). -/
theorem pixRead_pix_other {x y x' y' : Int} (h' : onScreen x' y' = true) (hne : ¬(x' = x ∧ y' = y)) (on : Bool)
    (v : Vram) : pixRead (pix x y on v) x' y' = pixRead v x' y' := by
  by_cases h : onScreen x y = true
  · by_cases hi : pixIndex x' y' = pixIndex x y
    · have hb : pixBit y' ≠ pixBit y := fun hb => hne (pixel_place_injective h' h hi hb)
      have hb8 := pixBit_lt y'
      have hs : ¬(pixBit y ≤ pixBit y' ∧ pixBit y' - pixBit y = 0) := by omega
      cases on <;> simp [pixRead, pix, h, hi, pixIndex_lt h, hb8] <;> omega
    · simp [pixRead, pix, h, hi]
  · simp [pix, h]

/-! ## Glyph columns -/

theorem vramRead_putCol_same (v : Vram) {p c : Nat} (hp : p < 6) (hc : c < 84) (b : Byte) :
    vramRead (putCol p c b v) (p * 84 + c) = b := by
  rw [putCol, if_pos ⟨hp, hc⟩]
  exact vramRead_vramWrite_same v _ b (by omega)

theorem vramRead_putCol_other (v : Vram) {p c q d : Nat} (hd : d < 84) (h : ¬(q = p ∧ d = c)) (b : Byte) :
    vramRead (putCol p c b v) (q * 84 + d) = vramRead v (q * 84 + d) := by
  rw [putCol]
  split
  · exact vramRead_vramWrite_other v (by omega) b
  · rfl

end Sys2Proof.Machine
end

