-- ==== Sys2Proof/Laws/State.lean ====
section
/-!
SUPPORT. One lemma per field per named update of State, true by rfl: no later proof unfolds a record update.
-/

namespace Sys2Proof.Machine

/-! ### State.setVram -/

@[simp] theorem State.setVram_vram (v : Vram) (s : State) : (s.setVram v).vram = v := rfl
@[simp] theorem State.setVram_curCol (v : Vram) (s : State) : (s.setVram v).curCol = s.curCol := rfl
@[simp] theorem State.setVram_curRow (v : Vram) (s : State) : (s.setVram v).curRow = s.curRow := rfl
@[simp] theorem State.setVram_status (v : Vram) (s : State) : (s.setVram v).status = s.status := rfl
@[simp] theorem State.setVram_parser (v : Vram) (s : State) : (s.setVram v).parser = s.parser := rfl
@[simp] theorem State.setVram_bus (v : Vram) (s : State) : (s.setVram v).bus = s.bus := rfl
@[simp] theorem State.setVram_chipSelect (v : Vram) (s : State) : (s.setVram v).chipSelect = s.chipSelect := rfl
@[simp] theorem State.setVram_cmd (v : Vram) (s : State) : (s.setVram v).cmd = s.cmd := rfl
@[simp] theorem State.setVram_rsp (v : Vram) (s : State) : (s.setVram v).rsp = s.rsp := rfl
@[simp] theorem State.setVram_faultMark (v : Vram) (s : State) : (s.setVram v).faultMark = s.faultMark := rfl
@[simp] theorem State.setVram_params (v : Vram) (s : State) : (s.setVram v).params = s.params := rfl
@[simp] theorem State.setVram_ee (v : Vram) (s : State) : (s.setVram v).ee = s.ee := rfl
@[simp] theorem State.setVram_panel (v : Vram) (s : State) : (s.setVram v).panel = s.panel := rfl
@[simp] theorem State.setVram_ports (v : Vram) (s : State) : (s.setVram v).ports = s.ports := rfl
@[simp] theorem State.setVram_portPlan (v : Vram) (s : State) : (s.setVram v).portPlan = s.portPlan := rfl
@[simp] theorem State.setVram_device (v : Vram) (s : State) : (s.setVram v).device = s.device := rfl
@[simp] theorem State.setVram_busEnabled (v : Vram) (s : State) : (s.setVram v).busEnabled = s.busEnabled := rfl
@[simp] theorem State.setVram_resetIn (v : Vram) (s : State) : (s.setVram v).resetIn = s.resetIn := rfl
@[simp] theorem State.setVram_draws (v : Vram) (s : State) : (s.setVram v).draws = s.draws := rfl

/-! ### State.setCursor -/

@[simp] theorem State.setCursor_vram (c r : Nat) (s : State) : (s.setCursor c r).vram = s.vram := rfl
@[simp] theorem State.setCursor_curCol (c r : Nat) (s : State) : (s.setCursor c r).curCol = c := rfl
@[simp] theorem State.setCursor_curRow (c r : Nat) (s : State) : (s.setCursor c r).curRow = r := rfl
@[simp] theorem State.setCursor_status (c r : Nat) (s : State) : (s.setCursor c r).status = s.status := rfl
@[simp] theorem State.setCursor_parser (c r : Nat) (s : State) : (s.setCursor c r).parser = s.parser := rfl
@[simp] theorem State.setCursor_bus (c r : Nat) (s : State) : (s.setCursor c r).bus = s.bus := rfl
@[simp] theorem State.setCursor_chipSelect (c r : Nat) (s : State) : (s.setCursor c r).chipSelect = s.chipSelect := rfl
@[simp] theorem State.setCursor_cmd (c r : Nat) (s : State) : (s.setCursor c r).cmd = s.cmd := rfl
@[simp] theorem State.setCursor_rsp (c r : Nat) (s : State) : (s.setCursor c r).rsp = s.rsp := rfl
@[simp] theorem State.setCursor_faultMark (c r : Nat) (s : State) : (s.setCursor c r).faultMark = s.faultMark := rfl
@[simp] theorem State.setCursor_params (c r : Nat) (s : State) : (s.setCursor c r).params = s.params := rfl
@[simp] theorem State.setCursor_ee (c r : Nat) (s : State) : (s.setCursor c r).ee = s.ee := rfl
@[simp] theorem State.setCursor_panel (c r : Nat) (s : State) : (s.setCursor c r).panel = s.panel := rfl
@[simp] theorem State.setCursor_ports (c r : Nat) (s : State) : (s.setCursor c r).ports = s.ports := rfl
@[simp] theorem State.setCursor_portPlan (c r : Nat) (s : State) : (s.setCursor c r).portPlan = s.portPlan := rfl
@[simp] theorem State.setCursor_device (c r : Nat) (s : State) : (s.setCursor c r).device = s.device := rfl
@[simp] theorem State.setCursor_busEnabled (c r : Nat) (s : State) : (s.setCursor c r).busEnabled = s.busEnabled := rfl
@[simp] theorem State.setCursor_resetIn (c r : Nat) (s : State) : (s.setCursor c r).resetIn = s.resetIn := rfl
@[simp] theorem State.setCursor_draws (c r : Nat) (s : State) : (s.setCursor c r).draws = s.draws := rfl

/-! ### State.setStatus -/

@[simp] theorem State.setStatus_vram (b : Byte) (s : State) : (s.setStatus b).vram = s.vram := rfl
@[simp] theorem State.setStatus_curCol (b : Byte) (s : State) : (s.setStatus b).curCol = s.curCol := rfl
@[simp] theorem State.setStatus_curRow (b : Byte) (s : State) : (s.setStatus b).curRow = s.curRow := rfl
@[simp] theorem State.setStatus_status (b : Byte) (s : State) : (s.setStatus b).status = b := rfl
@[simp] theorem State.setStatus_parser (b : Byte) (s : State) : (s.setStatus b).parser = s.parser := rfl
@[simp] theorem State.setStatus_bus (b : Byte) (s : State) : (s.setStatus b).bus = s.bus := rfl
@[simp] theorem State.setStatus_chipSelect (b : Byte) (s : State) : (s.setStatus b).chipSelect = s.chipSelect := rfl
@[simp] theorem State.setStatus_cmd (b : Byte) (s : State) : (s.setStatus b).cmd = s.cmd := rfl
@[simp] theorem State.setStatus_rsp (b : Byte) (s : State) : (s.setStatus b).rsp = s.rsp := rfl
@[simp] theorem State.setStatus_faultMark (b : Byte) (s : State) : (s.setStatus b).faultMark = s.faultMark := rfl
@[simp] theorem State.setStatus_params (b : Byte) (s : State) : (s.setStatus b).params = s.params := rfl
@[simp] theorem State.setStatus_ee (b : Byte) (s : State) : (s.setStatus b).ee = s.ee := rfl
@[simp] theorem State.setStatus_panel (b : Byte) (s : State) : (s.setStatus b).panel = s.panel := rfl
@[simp] theorem State.setStatus_ports (b : Byte) (s : State) : (s.setStatus b).ports = s.ports := rfl
@[simp] theorem State.setStatus_portPlan (b : Byte) (s : State) : (s.setStatus b).portPlan = s.portPlan := rfl
@[simp] theorem State.setStatus_device (b : Byte) (s : State) : (s.setStatus b).device = s.device := rfl
@[simp] theorem State.setStatus_busEnabled (b : Byte) (s : State) : (s.setStatus b).busEnabled = s.busEnabled := rfl
@[simp] theorem State.setStatus_resetIn (b : Byte) (s : State) : (s.setStatus b).resetIn = s.resetIn := rfl
@[simp] theorem State.setStatus_draws (b : Byte) (s : State) : (s.setStatus b).draws = s.draws := rfl

/-! ### State.setParser -/

@[simp] theorem State.setParser_vram (p : Parser) (s : State) : (s.setParser p).vram = s.vram := rfl
@[simp] theorem State.setParser_curCol (p : Parser) (s : State) : (s.setParser p).curCol = s.curCol := rfl
@[simp] theorem State.setParser_curRow (p : Parser) (s : State) : (s.setParser p).curRow = s.curRow := rfl
@[simp] theorem State.setParser_status (p : Parser) (s : State) : (s.setParser p).status = s.status := rfl
@[simp] theorem State.setParser_parser (p : Parser) (s : State) : (s.setParser p).parser = p := rfl
@[simp] theorem State.setParser_bus (p : Parser) (s : State) : (s.setParser p).bus = s.bus := rfl
@[simp] theorem State.setParser_chipSelect (p : Parser) (s : State) : (s.setParser p).chipSelect = s.chipSelect := rfl
@[simp] theorem State.setParser_cmd (p : Parser) (s : State) : (s.setParser p).cmd = s.cmd := rfl
@[simp] theorem State.setParser_rsp (p : Parser) (s : State) : (s.setParser p).rsp = s.rsp := rfl
@[simp] theorem State.setParser_faultMark (p : Parser) (s : State) : (s.setParser p).faultMark = s.faultMark := rfl
@[simp] theorem State.setParser_params (p : Parser) (s : State) : (s.setParser p).params = s.params := rfl
@[simp] theorem State.setParser_ee (p : Parser) (s : State) : (s.setParser p).ee = s.ee := rfl
@[simp] theorem State.setParser_panel (p : Parser) (s : State) : (s.setParser p).panel = s.panel := rfl
@[simp] theorem State.setParser_ports (p : Parser) (s : State) : (s.setParser p).ports = s.ports := rfl
@[simp] theorem State.setParser_portPlan (p : Parser) (s : State) : (s.setParser p).portPlan = s.portPlan := rfl
@[simp] theorem State.setParser_device (p : Parser) (s : State) : (s.setParser p).device = s.device := rfl
@[simp] theorem State.setParser_busEnabled (p : Parser) (s : State) : (s.setParser p).busEnabled = s.busEnabled := rfl
@[simp] theorem State.setParser_resetIn (p : Parser) (s : State) : (s.setParser p).resetIn = s.resetIn := rfl
@[simp] theorem State.setParser_draws (p : Parser) (s : State) : (s.setParser p).draws = s.draws := rfl

/-! ### State.setBus -/

@[simp] theorem State.setBus_vram (b : BusPosition) (s : State) : (s.setBus b).vram = s.vram := rfl
@[simp] theorem State.setBus_curCol (b : BusPosition) (s : State) : (s.setBus b).curCol = s.curCol := rfl
@[simp] theorem State.setBus_curRow (b : BusPosition) (s : State) : (s.setBus b).curRow = s.curRow := rfl
@[simp] theorem State.setBus_status (b : BusPosition) (s : State) : (s.setBus b).status = s.status := rfl
@[simp] theorem State.setBus_parser (b : BusPosition) (s : State) : (s.setBus b).parser = s.parser := rfl
@[simp] theorem State.setBus_bus (b : BusPosition) (s : State) : (s.setBus b).bus = b := rfl
@[simp] theorem State.setBus_chipSelect (b : BusPosition) (s : State) : (s.setBus b).chipSelect = s.chipSelect := rfl
@[simp] theorem State.setBus_cmd (b : BusPosition) (s : State) : (s.setBus b).cmd = s.cmd := rfl
@[simp] theorem State.setBus_rsp (b : BusPosition) (s : State) : (s.setBus b).rsp = s.rsp := rfl
@[simp] theorem State.setBus_faultMark (b : BusPosition) (s : State) : (s.setBus b).faultMark = s.faultMark := rfl
@[simp] theorem State.setBus_params (b : BusPosition) (s : State) : (s.setBus b).params = s.params := rfl
@[simp] theorem State.setBus_ee (b : BusPosition) (s : State) : (s.setBus b).ee = s.ee := rfl
@[simp] theorem State.setBus_panel (b : BusPosition) (s : State) : (s.setBus b).panel = s.panel := rfl
@[simp] theorem State.setBus_ports (b : BusPosition) (s : State) : (s.setBus b).ports = s.ports := rfl
@[simp] theorem State.setBus_portPlan (b : BusPosition) (s : State) : (s.setBus b).portPlan = s.portPlan := rfl
@[simp] theorem State.setBus_device (b : BusPosition) (s : State) : (s.setBus b).device = s.device := rfl
@[simp] theorem State.setBus_busEnabled (b : BusPosition) (s : State) : (s.setBus b).busEnabled = s.busEnabled := rfl
@[simp] theorem State.setBus_resetIn (b : BusPosition) (s : State) : (s.setBus b).resetIn = s.resetIn := rfl
@[simp] theorem State.setBus_draws (b : BusPosition) (s : State) : (s.setBus b).draws = s.draws := rfl

/-! ### State.setChipSelect -/

@[simp] theorem State.setChipSelect_vram (b : Bool) (s : State) : (s.setChipSelect b).vram = s.vram := rfl
@[simp] theorem State.setChipSelect_curCol (b : Bool) (s : State) : (s.setChipSelect b).curCol = s.curCol := rfl
@[simp] theorem State.setChipSelect_curRow (b : Bool) (s : State) : (s.setChipSelect b).curRow = s.curRow := rfl
@[simp] theorem State.setChipSelect_status (b : Bool) (s : State) : (s.setChipSelect b).status = s.status := rfl
@[simp] theorem State.setChipSelect_parser (b : Bool) (s : State) : (s.setChipSelect b).parser = s.parser := rfl
@[simp] theorem State.setChipSelect_bus (b : Bool) (s : State) : (s.setChipSelect b).bus = s.bus := rfl
@[simp] theorem State.setChipSelect_chipSelect (b : Bool) (s : State) : (s.setChipSelect b).chipSelect = b := rfl
@[simp] theorem State.setChipSelect_cmd (b : Bool) (s : State) : (s.setChipSelect b).cmd = s.cmd := rfl
@[simp] theorem State.setChipSelect_rsp (b : Bool) (s : State) : (s.setChipSelect b).rsp = s.rsp := rfl
@[simp] theorem State.setChipSelect_faultMark (b : Bool) (s : State) : (s.setChipSelect b).faultMark = s.faultMark := rfl
@[simp] theorem State.setChipSelect_params (b : Bool) (s : State) : (s.setChipSelect b).params = s.params := rfl
@[simp] theorem State.setChipSelect_ee (b : Bool) (s : State) : (s.setChipSelect b).ee = s.ee := rfl
@[simp] theorem State.setChipSelect_panel (b : Bool) (s : State) : (s.setChipSelect b).panel = s.panel := rfl
@[simp] theorem State.setChipSelect_ports (b : Bool) (s : State) : (s.setChipSelect b).ports = s.ports := rfl
@[simp] theorem State.setChipSelect_portPlan (b : Bool) (s : State) : (s.setChipSelect b).portPlan = s.portPlan := rfl
@[simp] theorem State.setChipSelect_device (b : Bool) (s : State) : (s.setChipSelect b).device = s.device := rfl
@[simp] theorem State.setChipSelect_busEnabled (b : Bool) (s : State) : (s.setChipSelect b).busEnabled = s.busEnabled := rfl
@[simp] theorem State.setChipSelect_resetIn (b : Bool) (s : State) : (s.setChipSelect b).resetIn = s.resetIn := rfl
@[simp] theorem State.setChipSelect_draws (b : Bool) (s : State) : (s.setChipSelect b).draws = s.draws := rfl

/-! ### State.setCmd -/

@[simp] theorem State.setCmd_vram (bs : List Byte) (s : State) : (s.setCmd bs).vram = s.vram := rfl
@[simp] theorem State.setCmd_curCol (bs : List Byte) (s : State) : (s.setCmd bs).curCol = s.curCol := rfl
@[simp] theorem State.setCmd_curRow (bs : List Byte) (s : State) : (s.setCmd bs).curRow = s.curRow := rfl
@[simp] theorem State.setCmd_status (bs : List Byte) (s : State) : (s.setCmd bs).status = s.status := rfl
@[simp] theorem State.setCmd_parser (bs : List Byte) (s : State) : (s.setCmd bs).parser = s.parser := rfl
@[simp] theorem State.setCmd_bus (bs : List Byte) (s : State) : (s.setCmd bs).bus = s.bus := rfl
@[simp] theorem State.setCmd_chipSelect (bs : List Byte) (s : State) : (s.setCmd bs).chipSelect = s.chipSelect := rfl
@[simp] theorem State.setCmd_cmd (bs : List Byte) (s : State) : (s.setCmd bs).cmd = bs := rfl
@[simp] theorem State.setCmd_rsp (bs : List Byte) (s : State) : (s.setCmd bs).rsp = s.rsp := rfl
@[simp] theorem State.setCmd_faultMark (bs : List Byte) (s : State) : (s.setCmd bs).faultMark = s.faultMark := rfl
@[simp] theorem State.setCmd_params (bs : List Byte) (s : State) : (s.setCmd bs).params = s.params := rfl
@[simp] theorem State.setCmd_ee (bs : List Byte) (s : State) : (s.setCmd bs).ee = s.ee := rfl
@[simp] theorem State.setCmd_panel (bs : List Byte) (s : State) : (s.setCmd bs).panel = s.panel := rfl
@[simp] theorem State.setCmd_ports (bs : List Byte) (s : State) : (s.setCmd bs).ports = s.ports := rfl
@[simp] theorem State.setCmd_portPlan (bs : List Byte) (s : State) : (s.setCmd bs).portPlan = s.portPlan := rfl
@[simp] theorem State.setCmd_device (bs : List Byte) (s : State) : (s.setCmd bs).device = s.device := rfl
@[simp] theorem State.setCmd_busEnabled (bs : List Byte) (s : State) : (s.setCmd bs).busEnabled = s.busEnabled := rfl
@[simp] theorem State.setCmd_resetIn (bs : List Byte) (s : State) : (s.setCmd bs).resetIn = s.resetIn := rfl
@[simp] theorem State.setCmd_draws (bs : List Byte) (s : State) : (s.setCmd bs).draws = s.draws := rfl

/-! ### State.setRsp -/

@[simp] theorem State.setRsp_vram (bs : List Byte) (s : State) : (s.setRsp bs).vram = s.vram := rfl
@[simp] theorem State.setRsp_curCol (bs : List Byte) (s : State) : (s.setRsp bs).curCol = s.curCol := rfl
@[simp] theorem State.setRsp_curRow (bs : List Byte) (s : State) : (s.setRsp bs).curRow = s.curRow := rfl
@[simp] theorem State.setRsp_status (bs : List Byte) (s : State) : (s.setRsp bs).status = s.status := rfl
@[simp] theorem State.setRsp_parser (bs : List Byte) (s : State) : (s.setRsp bs).parser = s.parser := rfl
@[simp] theorem State.setRsp_bus (bs : List Byte) (s : State) : (s.setRsp bs).bus = s.bus := rfl
@[simp] theorem State.setRsp_chipSelect (bs : List Byte) (s : State) : (s.setRsp bs).chipSelect = s.chipSelect := rfl
@[simp] theorem State.setRsp_cmd (bs : List Byte) (s : State) : (s.setRsp bs).cmd = s.cmd := rfl
@[simp] theorem State.setRsp_rsp (bs : List Byte) (s : State) : (s.setRsp bs).rsp = bs := rfl
@[simp] theorem State.setRsp_faultMark (bs : List Byte) (s : State) : (s.setRsp bs).faultMark = s.faultMark := rfl
@[simp] theorem State.setRsp_params (bs : List Byte) (s : State) : (s.setRsp bs).params = s.params := rfl
@[simp] theorem State.setRsp_ee (bs : List Byte) (s : State) : (s.setRsp bs).ee = s.ee := rfl
@[simp] theorem State.setRsp_panel (bs : List Byte) (s : State) : (s.setRsp bs).panel = s.panel := rfl
@[simp] theorem State.setRsp_ports (bs : List Byte) (s : State) : (s.setRsp bs).ports = s.ports := rfl
@[simp] theorem State.setRsp_portPlan (bs : List Byte) (s : State) : (s.setRsp bs).portPlan = s.portPlan := rfl
@[simp] theorem State.setRsp_device (bs : List Byte) (s : State) : (s.setRsp bs).device = s.device := rfl
@[simp] theorem State.setRsp_busEnabled (bs : List Byte) (s : State) : (s.setRsp bs).busEnabled = s.busEnabled := rfl
@[simp] theorem State.setRsp_resetIn (bs : List Byte) (s : State) : (s.setRsp bs).resetIn = s.resetIn := rfl
@[simp] theorem State.setRsp_draws (bs : List Byte) (s : State) : (s.setRsp bs).draws = s.draws := rfl

/-! ### State.setFaultMark -/

@[simp] theorem State.setFaultMark_vram (b : Bool) (s : State) : (s.setFaultMark b).vram = s.vram := rfl
@[simp] theorem State.setFaultMark_curCol (b : Bool) (s : State) : (s.setFaultMark b).curCol = s.curCol := rfl
@[simp] theorem State.setFaultMark_curRow (b : Bool) (s : State) : (s.setFaultMark b).curRow = s.curRow := rfl
@[simp] theorem State.setFaultMark_status (b : Bool) (s : State) : (s.setFaultMark b).status = s.status := rfl
@[simp] theorem State.setFaultMark_parser (b : Bool) (s : State) : (s.setFaultMark b).parser = s.parser := rfl
@[simp] theorem State.setFaultMark_bus (b : Bool) (s : State) : (s.setFaultMark b).bus = s.bus := rfl
@[simp] theorem State.setFaultMark_chipSelect (b : Bool) (s : State) : (s.setFaultMark b).chipSelect = s.chipSelect := rfl
@[simp] theorem State.setFaultMark_cmd (b : Bool) (s : State) : (s.setFaultMark b).cmd = s.cmd := rfl
@[simp] theorem State.setFaultMark_rsp (b : Bool) (s : State) : (s.setFaultMark b).rsp = s.rsp := rfl
@[simp] theorem State.setFaultMark_faultMark (b : Bool) (s : State) : (s.setFaultMark b).faultMark = b := rfl
@[simp] theorem State.setFaultMark_params (b : Bool) (s : State) : (s.setFaultMark b).params = s.params := rfl
@[simp] theorem State.setFaultMark_ee (b : Bool) (s : State) : (s.setFaultMark b).ee = s.ee := rfl
@[simp] theorem State.setFaultMark_panel (b : Bool) (s : State) : (s.setFaultMark b).panel = s.panel := rfl
@[simp] theorem State.setFaultMark_ports (b : Bool) (s : State) : (s.setFaultMark b).ports = s.ports := rfl
@[simp] theorem State.setFaultMark_portPlan (b : Bool) (s : State) : (s.setFaultMark b).portPlan = s.portPlan := rfl
@[simp] theorem State.setFaultMark_device (b : Bool) (s : State) : (s.setFaultMark b).device = s.device := rfl
@[simp] theorem State.setFaultMark_busEnabled (b : Bool) (s : State) : (s.setFaultMark b).busEnabled = s.busEnabled := rfl
@[simp] theorem State.setFaultMark_resetIn (b : Bool) (s : State) : (s.setFaultMark b).resetIn = s.resetIn := rfl
@[simp] theorem State.setFaultMark_draws (b : Bool) (s : State) : (s.setFaultMark b).draws = s.draws := rfl

/-! ### State.setEe -/

@[simp] theorem State.setEe_vram (m : Memory) (s : State) : (s.setEe m).vram = s.vram := rfl
@[simp] theorem State.setEe_curCol (m : Memory) (s : State) : (s.setEe m).curCol = s.curCol := rfl
@[simp] theorem State.setEe_curRow (m : Memory) (s : State) : (s.setEe m).curRow = s.curRow := rfl
@[simp] theorem State.setEe_status (m : Memory) (s : State) : (s.setEe m).status = s.status := rfl
@[simp] theorem State.setEe_parser (m : Memory) (s : State) : (s.setEe m).parser = s.parser := rfl
@[simp] theorem State.setEe_bus (m : Memory) (s : State) : (s.setEe m).bus = s.bus := rfl
@[simp] theorem State.setEe_chipSelect (m : Memory) (s : State) : (s.setEe m).chipSelect = s.chipSelect := rfl
@[simp] theorem State.setEe_cmd (m : Memory) (s : State) : (s.setEe m).cmd = s.cmd := rfl
@[simp] theorem State.setEe_rsp (m : Memory) (s : State) : (s.setEe m).rsp = s.rsp := rfl
@[simp] theorem State.setEe_faultMark (m : Memory) (s : State) : (s.setEe m).faultMark = s.faultMark := rfl
@[simp] theorem State.setEe_params (m : Memory) (s : State) : (s.setEe m).params = s.params := rfl
@[simp] theorem State.setEe_ee (m : Memory) (s : State) : (s.setEe m).ee = m := rfl
@[simp] theorem State.setEe_panel (m : Memory) (s : State) : (s.setEe m).panel = s.panel := rfl
@[simp] theorem State.setEe_ports (m : Memory) (s : State) : (s.setEe m).ports = s.ports := rfl
@[simp] theorem State.setEe_portPlan (m : Memory) (s : State) : (s.setEe m).portPlan = s.portPlan := rfl
@[simp] theorem State.setEe_device (m : Memory) (s : State) : (s.setEe m).device = s.device := rfl
@[simp] theorem State.setEe_busEnabled (m : Memory) (s : State) : (s.setEe m).busEnabled = s.busEnabled := rfl
@[simp] theorem State.setEe_resetIn (m : Memory) (s : State) : (s.setEe m).resetIn = s.resetIn := rfl
@[simp] theorem State.setEe_draws (m : Memory) (s : State) : (s.setEe m).draws = s.draws := rfl

/-! ### State.setPanel -/

@[simp] theorem State.setPanel_vram (v : Vram) (s : State) : (s.setPanel v).vram = s.vram := rfl
@[simp] theorem State.setPanel_curCol (v : Vram) (s : State) : (s.setPanel v).curCol = s.curCol := rfl
@[simp] theorem State.setPanel_curRow (v : Vram) (s : State) : (s.setPanel v).curRow = s.curRow := rfl
@[simp] theorem State.setPanel_status (v : Vram) (s : State) : (s.setPanel v).status = s.status := rfl
@[simp] theorem State.setPanel_parser (v : Vram) (s : State) : (s.setPanel v).parser = s.parser := rfl
@[simp] theorem State.setPanel_bus (v : Vram) (s : State) : (s.setPanel v).bus = s.bus := rfl
@[simp] theorem State.setPanel_chipSelect (v : Vram) (s : State) : (s.setPanel v).chipSelect = s.chipSelect := rfl
@[simp] theorem State.setPanel_cmd (v : Vram) (s : State) : (s.setPanel v).cmd = s.cmd := rfl
@[simp] theorem State.setPanel_rsp (v : Vram) (s : State) : (s.setPanel v).rsp = s.rsp := rfl
@[simp] theorem State.setPanel_faultMark (v : Vram) (s : State) : (s.setPanel v).faultMark = s.faultMark := rfl
@[simp] theorem State.setPanel_params (v : Vram) (s : State) : (s.setPanel v).params = s.params := rfl
@[simp] theorem State.setPanel_ee (v : Vram) (s : State) : (s.setPanel v).ee = s.ee := rfl
@[simp] theorem State.setPanel_panel (v : Vram) (s : State) : (s.setPanel v).panel = some v := rfl
@[simp] theorem State.setPanel_ports (v : Vram) (s : State) : (s.setPanel v).ports = s.ports := rfl
@[simp] theorem State.setPanel_portPlan (v : Vram) (s : State) : (s.setPanel v).portPlan = s.portPlan := rfl
@[simp] theorem State.setPanel_device (v : Vram) (s : State) : (s.setPanel v).device = s.device := rfl
@[simp] theorem State.setPanel_busEnabled (v : Vram) (s : State) : (s.setPanel v).busEnabled = s.busEnabled := rfl
@[simp] theorem State.setPanel_resetIn (v : Vram) (s : State) : (s.setPanel v).resetIn = s.resetIn := rfl
@[simp] theorem State.setPanel_draws (v : Vram) (s : State) : (s.setPanel v).draws = s.draws := rfl

/-! ### State.setPorts -/

@[simp] theorem State.setPorts_vram (es : List PortEvent) (s : State) : (s.setPorts es).vram = s.vram := rfl
@[simp] theorem State.setPorts_curCol (es : List PortEvent) (s : State) : (s.setPorts es).curCol = s.curCol := rfl
@[simp] theorem State.setPorts_curRow (es : List PortEvent) (s : State) : (s.setPorts es).curRow = s.curRow := rfl
@[simp] theorem State.setPorts_status (es : List PortEvent) (s : State) : (s.setPorts es).status = s.status := rfl
@[simp] theorem State.setPorts_parser (es : List PortEvent) (s : State) : (s.setPorts es).parser = s.parser := rfl
@[simp] theorem State.setPorts_bus (es : List PortEvent) (s : State) : (s.setPorts es).bus = s.bus := rfl
@[simp] theorem State.setPorts_chipSelect (es : List PortEvent) (s : State) : (s.setPorts es).chipSelect = s.chipSelect := rfl
@[simp] theorem State.setPorts_cmd (es : List PortEvent) (s : State) : (s.setPorts es).cmd = s.cmd := rfl
@[simp] theorem State.setPorts_rsp (es : List PortEvent) (s : State) : (s.setPorts es).rsp = s.rsp := rfl
@[simp] theorem State.setPorts_faultMark (es : List PortEvent) (s : State) : (s.setPorts es).faultMark = s.faultMark := rfl
@[simp] theorem State.setPorts_params (es : List PortEvent) (s : State) : (s.setPorts es).params = s.params := rfl
@[simp] theorem State.setPorts_ee (es : List PortEvent) (s : State) : (s.setPorts es).ee = s.ee := rfl
@[simp] theorem State.setPorts_panel (es : List PortEvent) (s : State) : (s.setPorts es).panel = s.panel := rfl
@[simp] theorem State.setPorts_ports (es : List PortEvent) (s : State) : (s.setPorts es).ports = es := rfl
@[simp] theorem State.setPorts_portPlan (es : List PortEvent) (s : State) : (s.setPorts es).portPlan = s.portPlan := rfl
@[simp] theorem State.setPorts_device (es : List PortEvent) (s : State) : (s.setPorts es).device = s.device := rfl
@[simp] theorem State.setPorts_busEnabled (es : List PortEvent) (s : State) : (s.setPorts es).busEnabled = s.busEnabled := rfl
@[simp] theorem State.setPorts_resetIn (es : List PortEvent) (s : State) : (s.setPorts es).resetIn = s.resetIn := rfl
@[simp] theorem State.setPorts_draws (es : List PortEvent) (s : State) : (s.setPorts es).draws = s.draws := rfl

/-! ### State.setPortPlan -/

@[simp] theorem State.setPortPlan_vram (p : PortPlan) (s : State) : (s.setPortPlan p).vram = s.vram := rfl
@[simp] theorem State.setPortPlan_curCol (p : PortPlan) (s : State) : (s.setPortPlan p).curCol = s.curCol := rfl
@[simp] theorem State.setPortPlan_curRow (p : PortPlan) (s : State) : (s.setPortPlan p).curRow = s.curRow := rfl
@[simp] theorem State.setPortPlan_status (p : PortPlan) (s : State) : (s.setPortPlan p).status = s.status := rfl
@[simp] theorem State.setPortPlan_parser (p : PortPlan) (s : State) : (s.setPortPlan p).parser = s.parser := rfl
@[simp] theorem State.setPortPlan_bus (p : PortPlan) (s : State) : (s.setPortPlan p).bus = s.bus := rfl
@[simp] theorem State.setPortPlan_chipSelect (p : PortPlan) (s : State) : (s.setPortPlan p).chipSelect = s.chipSelect := rfl
@[simp] theorem State.setPortPlan_cmd (p : PortPlan) (s : State) : (s.setPortPlan p).cmd = s.cmd := rfl
@[simp] theorem State.setPortPlan_rsp (p : PortPlan) (s : State) : (s.setPortPlan p).rsp = s.rsp := rfl
@[simp] theorem State.setPortPlan_faultMark (p : PortPlan) (s : State) : (s.setPortPlan p).faultMark = s.faultMark := rfl
@[simp] theorem State.setPortPlan_params (p : PortPlan) (s : State) : (s.setPortPlan p).params = s.params := rfl
@[simp] theorem State.setPortPlan_ee (p : PortPlan) (s : State) : (s.setPortPlan p).ee = s.ee := rfl
@[simp] theorem State.setPortPlan_panel (p : PortPlan) (s : State) : (s.setPortPlan p).panel = s.panel := rfl
@[simp] theorem State.setPortPlan_ports (p : PortPlan) (s : State) : (s.setPortPlan p).ports = s.ports := rfl
@[simp] theorem State.setPortPlan_portPlan (p : PortPlan) (s : State) : (s.setPortPlan p).portPlan = p := rfl
@[simp] theorem State.setPortPlan_device (p : PortPlan) (s : State) : (s.setPortPlan p).device = s.device := rfl
@[simp] theorem State.setPortPlan_busEnabled (p : PortPlan) (s : State) : (s.setPortPlan p).busEnabled = s.busEnabled := rfl
@[simp] theorem State.setPortPlan_resetIn (p : PortPlan) (s : State) : (s.setPortPlan p).resetIn = s.resetIn := rfl
@[simp] theorem State.setPortPlan_draws (p : PortPlan) (s : State) : (s.setPortPlan p).draws = s.draws := rfl

/-! ### State.setBusEnabled -/

@[simp] theorem State.setBusEnabled_vram (b : Bool) (s : State) : (s.setBusEnabled b).vram = s.vram := rfl
@[simp] theorem State.setBusEnabled_curCol (b : Bool) (s : State) : (s.setBusEnabled b).curCol = s.curCol := rfl
@[simp] theorem State.setBusEnabled_curRow (b : Bool) (s : State) : (s.setBusEnabled b).curRow = s.curRow := rfl
@[simp] theorem State.setBusEnabled_status (b : Bool) (s : State) : (s.setBusEnabled b).status = s.status := rfl
@[simp] theorem State.setBusEnabled_parser (b : Bool) (s : State) : (s.setBusEnabled b).parser = s.parser := rfl
@[simp] theorem State.setBusEnabled_bus (b : Bool) (s : State) : (s.setBusEnabled b).bus = s.bus := rfl
@[simp] theorem State.setBusEnabled_chipSelect (b : Bool) (s : State) : (s.setBusEnabled b).chipSelect = s.chipSelect := rfl
@[simp] theorem State.setBusEnabled_cmd (b : Bool) (s : State) : (s.setBusEnabled b).cmd = s.cmd := rfl
@[simp] theorem State.setBusEnabled_rsp (b : Bool) (s : State) : (s.setBusEnabled b).rsp = s.rsp := rfl
@[simp] theorem State.setBusEnabled_faultMark (b : Bool) (s : State) : (s.setBusEnabled b).faultMark = s.faultMark := rfl
@[simp] theorem State.setBusEnabled_params (b : Bool) (s : State) : (s.setBusEnabled b).params = s.params := rfl
@[simp] theorem State.setBusEnabled_ee (b : Bool) (s : State) : (s.setBusEnabled b).ee = s.ee := rfl
@[simp] theorem State.setBusEnabled_panel (b : Bool) (s : State) : (s.setBusEnabled b).panel = s.panel := rfl
@[simp] theorem State.setBusEnabled_ports (b : Bool) (s : State) : (s.setBusEnabled b).ports = s.ports := rfl
@[simp] theorem State.setBusEnabled_portPlan (b : Bool) (s : State) : (s.setBusEnabled b).portPlan = s.portPlan := rfl
@[simp] theorem State.setBusEnabled_device (b : Bool) (s : State) : (s.setBusEnabled b).device = s.device := rfl
@[simp] theorem State.setBusEnabled_busEnabled (b : Bool) (s : State) : (s.setBusEnabled b).busEnabled = b := rfl
@[simp] theorem State.setBusEnabled_resetIn (b : Bool) (s : State) : (s.setBusEnabled b).resetIn = s.resetIn := rfl
@[simp] theorem State.setBusEnabled_draws (b : Bool) (s : State) : (s.setBusEnabled b).draws = s.draws := rfl

/-! ### State.setResetIn -/

@[simp] theorem State.setResetIn_vram (b : Bool) (s : State) : (s.setResetIn b).vram = s.vram := rfl
@[simp] theorem State.setResetIn_curCol (b : Bool) (s : State) : (s.setResetIn b).curCol = s.curCol := rfl
@[simp] theorem State.setResetIn_curRow (b : Bool) (s : State) : (s.setResetIn b).curRow = s.curRow := rfl
@[simp] theorem State.setResetIn_status (b : Bool) (s : State) : (s.setResetIn b).status = s.status := rfl
@[simp] theorem State.setResetIn_parser (b : Bool) (s : State) : (s.setResetIn b).parser = s.parser := rfl
@[simp] theorem State.setResetIn_bus (b : Bool) (s : State) : (s.setResetIn b).bus = s.bus := rfl
@[simp] theorem State.setResetIn_chipSelect (b : Bool) (s : State) : (s.setResetIn b).chipSelect = s.chipSelect := rfl
@[simp] theorem State.setResetIn_cmd (b : Bool) (s : State) : (s.setResetIn b).cmd = s.cmd := rfl
@[simp] theorem State.setResetIn_rsp (b : Bool) (s : State) : (s.setResetIn b).rsp = s.rsp := rfl
@[simp] theorem State.setResetIn_faultMark (b : Bool) (s : State) : (s.setResetIn b).faultMark = s.faultMark := rfl
@[simp] theorem State.setResetIn_params (b : Bool) (s : State) : (s.setResetIn b).params = s.params := rfl
@[simp] theorem State.setResetIn_ee (b : Bool) (s : State) : (s.setResetIn b).ee = s.ee := rfl
@[simp] theorem State.setResetIn_panel (b : Bool) (s : State) : (s.setResetIn b).panel = s.panel := rfl
@[simp] theorem State.setResetIn_ports (b : Bool) (s : State) : (s.setResetIn b).ports = s.ports := rfl
@[simp] theorem State.setResetIn_portPlan (b : Bool) (s : State) : (s.setResetIn b).portPlan = s.portPlan := rfl
@[simp] theorem State.setResetIn_device (b : Bool) (s : State) : (s.setResetIn b).device = s.device := rfl
@[simp] theorem State.setResetIn_busEnabled (b : Bool) (s : State) : (s.setResetIn b).busEnabled = s.busEnabled := rfl
@[simp] theorem State.setResetIn_resetIn (b : Bool) (s : State) : (s.setResetIn b).resetIn = b := rfl
@[simp] theorem State.setResetIn_draws (b : Bool) (s : State) : (s.setResetIn b).draws = s.draws := rfl

/-! ### State.setDraws -/

@[simp] theorem State.setDraws_vram (n : Nat) (s : State) : (s.setDraws n).vram = s.vram := rfl
@[simp] theorem State.setDraws_curCol (n : Nat) (s : State) : (s.setDraws n).curCol = s.curCol := rfl
@[simp] theorem State.setDraws_curRow (n : Nat) (s : State) : (s.setDraws n).curRow = s.curRow := rfl
@[simp] theorem State.setDraws_status (n : Nat) (s : State) : (s.setDraws n).status = s.status := rfl
@[simp] theorem State.setDraws_parser (n : Nat) (s : State) : (s.setDraws n).parser = s.parser := rfl
@[simp] theorem State.setDraws_bus (n : Nat) (s : State) : (s.setDraws n).bus = s.bus := rfl
@[simp] theorem State.setDraws_chipSelect (n : Nat) (s : State) : (s.setDraws n).chipSelect = s.chipSelect := rfl
@[simp] theorem State.setDraws_cmd (n : Nat) (s : State) : (s.setDraws n).cmd = s.cmd := rfl
@[simp] theorem State.setDraws_rsp (n : Nat) (s : State) : (s.setDraws n).rsp = s.rsp := rfl
@[simp] theorem State.setDraws_faultMark (n : Nat) (s : State) : (s.setDraws n).faultMark = s.faultMark := rfl
@[simp] theorem State.setDraws_params (n : Nat) (s : State) : (s.setDraws n).params = s.params := rfl
@[simp] theorem State.setDraws_ee (n : Nat) (s : State) : (s.setDraws n).ee = s.ee := rfl
@[simp] theorem State.setDraws_panel (n : Nat) (s : State) : (s.setDraws n).panel = s.panel := rfl
@[simp] theorem State.setDraws_ports (n : Nat) (s : State) : (s.setDraws n).ports = s.ports := rfl
@[simp] theorem State.setDraws_portPlan (n : Nat) (s : State) : (s.setDraws n).portPlan = s.portPlan := rfl
@[simp] theorem State.setDraws_device (n : Nat) (s : State) : (s.setDraws n).device = s.device := rfl
@[simp] theorem State.setDraws_busEnabled (n : Nat) (s : State) : (s.setDraws n).busEnabled = s.busEnabled := rfl
@[simp] theorem State.setDraws_resetIn (n : Nat) (s : State) : (s.setDraws n).resetIn = s.resetIn := rfl
@[simp] theorem State.setDraws_draws (n : Nat) (s : State) : (s.setDraws n).draws = n := rfl

end Sys2Proof.Machine
end

