-- ==== Sys2Proof/Laws/Updates.lean ====
section
/-!
SUPPORT. One lemma per field for the shared operations that are record updates: what each writes and that it
leaves the rest alone.
-/

namespace Sys2Proof.Machine

/-! ### State.respond -/

@[simp] theorem State.respond_vram (bs : List Byte) (s : State) : (s.respond bs).vram = s.vram := by
  simp only [State.respond, State.setRsp]
@[simp] theorem State.respond_curCol (bs : List Byte) (s : State) : (s.respond bs).curCol = s.curCol := by
  simp only [State.respond, State.setRsp]
@[simp] theorem State.respond_curRow (bs : List Byte) (s : State) : (s.respond bs).curRow = s.curRow := by
  simp only [State.respond, State.setRsp]
@[simp] theorem State.respond_status (bs : List Byte) (s : State) : (s.respond bs).status = s.status := by
  simp only [State.respond, State.setRsp]
@[simp] theorem State.respond_parser (bs : List Byte) (s : State) : (s.respond bs).parser = s.parser := by
  simp only [State.respond, State.setRsp]
@[simp] theorem State.respond_bus (bs : List Byte) (s : State) : (s.respond bs).bus = s.bus := by
  simp only [State.respond, State.setRsp]
@[simp] theorem State.respond_chipSelect (bs : List Byte) (s : State) : (s.respond bs).chipSelect = s.chipSelect := by
  simp only [State.respond, State.setRsp]
@[simp] theorem State.respond_cmd (bs : List Byte) (s : State) : (s.respond bs).cmd = s.cmd := by
  simp only [State.respond, State.setRsp]
@[simp] theorem State.respond_rsp (bs : List Byte) (s : State) : (s.respond bs).rsp = s.rsp ++ bs := by
  simp only [State.respond, State.setRsp]
@[simp] theorem State.respond_faultMark (bs : List Byte) (s : State) : (s.respond bs).faultMark = s.faultMark := by
  simp only [State.respond, State.setRsp]
@[simp] theorem State.respond_params (bs : List Byte) (s : State) : (s.respond bs).params = s.params := by
  simp only [State.respond, State.setRsp]
@[simp] theorem State.respond_ee (bs : List Byte) (s : State) : (s.respond bs).ee = s.ee := by
  simp only [State.respond, State.setRsp]
@[simp] theorem State.respond_panel (bs : List Byte) (s : State) : (s.respond bs).panel = s.panel := by
  simp only [State.respond, State.setRsp]
@[simp] theorem State.respond_ports (bs : List Byte) (s : State) : (s.respond bs).ports = s.ports := by
  simp only [State.respond, State.setRsp]
@[simp] theorem State.respond_portPlan (bs : List Byte) (s : State) : (s.respond bs).portPlan = s.portPlan := by
  simp only [State.respond, State.setRsp]
@[simp] theorem State.respond_device (bs : List Byte) (s : State) : (s.respond bs).device = s.device := by
  simp only [State.respond, State.setRsp]
@[simp] theorem State.respond_busEnabled (bs : List Byte) (s : State) : (s.respond bs).busEnabled = s.busEnabled := by
  simp only [State.respond, State.setRsp]
@[simp] theorem State.respond_resetIn (bs : List Byte) (s : State) : (s.respond bs).resetIn = s.resetIn := by
  simp only [State.respond, State.setRsp]
@[simp] theorem State.respond_draws (bs : List Byte) (s : State) : (s.respond bs).draws = s.draws := by
  simp only [State.respond, State.setRsp]

/-! ### State.hold -/

@[simp] theorem State.hold_vram (cw : CmdWord) (p : Progress) (s : State) : (s.hold cw p).vram = s.vram := by
  simp only [State.hold, State.setParser]
@[simp] theorem State.hold_curCol (cw : CmdWord) (p : Progress) (s : State) : (s.hold cw p).curCol = s.curCol := by
  simp only [State.hold, State.setParser]
@[simp] theorem State.hold_curRow (cw : CmdWord) (p : Progress) (s : State) : (s.hold cw p).curRow = s.curRow := by
  simp only [State.hold, State.setParser]
@[simp] theorem State.hold_status (cw : CmdWord) (p : Progress) (s : State) : (s.hold cw p).status = s.status := by
  simp only [State.hold, State.setParser]
@[simp] theorem State.hold_parser (cw : CmdWord) (p : Progress) (s : State) : (s.hold cw p).parser = .exec cw p := by
  simp only [State.hold, State.setParser]
@[simp] theorem State.hold_bus (cw : CmdWord) (p : Progress) (s : State) : (s.hold cw p).bus = s.bus := by
  simp only [State.hold, State.setParser]
@[simp] theorem State.hold_chipSelect (cw : CmdWord) (p : Progress) (s : State) : (s.hold cw p).chipSelect = s.chipSelect := by
  simp only [State.hold, State.setParser]
@[simp] theorem State.hold_cmd (cw : CmdWord) (p : Progress) (s : State) : (s.hold cw p).cmd = s.cmd := by
  simp only [State.hold, State.setParser]
@[simp] theorem State.hold_rsp (cw : CmdWord) (p : Progress) (s : State) : (s.hold cw p).rsp = s.rsp := by
  simp only [State.hold, State.setParser]
@[simp] theorem State.hold_faultMark (cw : CmdWord) (p : Progress) (s : State) : (s.hold cw p).faultMark = s.faultMark := by
  simp only [State.hold, State.setParser]
@[simp] theorem State.hold_params (cw : CmdWord) (p : Progress) (s : State) : (s.hold cw p).params = s.params := by
  simp only [State.hold, State.setParser]
@[simp] theorem State.hold_ee (cw : CmdWord) (p : Progress) (s : State) : (s.hold cw p).ee = s.ee := by
  simp only [State.hold, State.setParser]
@[simp] theorem State.hold_panel (cw : CmdWord) (p : Progress) (s : State) : (s.hold cw p).panel = s.panel := by
  simp only [State.hold, State.setParser]
@[simp] theorem State.hold_ports (cw : CmdWord) (p : Progress) (s : State) : (s.hold cw p).ports = s.ports := by
  simp only [State.hold, State.setParser]
@[simp] theorem State.hold_portPlan (cw : CmdWord) (p : Progress) (s : State) : (s.hold cw p).portPlan = s.portPlan := by
  simp only [State.hold, State.setParser]
@[simp] theorem State.hold_device (cw : CmdWord) (p : Progress) (s : State) : (s.hold cw p).device = s.device := by
  simp only [State.hold, State.setParser]
@[simp] theorem State.hold_busEnabled (cw : CmdWord) (p : Progress) (s : State) : (s.hold cw p).busEnabled = s.busEnabled := by
  simp only [State.hold, State.setParser]
@[simp] theorem State.hold_resetIn (cw : CmdWord) (p : Progress) (s : State) : (s.hold cw p).resetIn = s.resetIn := by
  simp only [State.hold, State.setParser]
@[simp] theorem State.hold_draws (cw : CmdWord) (p : Progress) (s : State) : (s.hold cw p).draws = s.draws := by
  simp only [State.hold, State.setParser]

/-! ### State.raise -/

@[simp] theorem State.raise_vram (e : CmdError) (s : State) : (s.raise e).vram = s.vram := by
  simp only [State.raise, State.setStatus]
@[simp] theorem State.raise_curCol (e : CmdError) (s : State) : (s.raise e).curCol = s.curCol := by
  simp only [State.raise, State.setStatus]
@[simp] theorem State.raise_curRow (e : CmdError) (s : State) : (s.raise e).curRow = s.curRow := by
  simp only [State.raise, State.setStatus]
@[simp] theorem State.raise_status (e : CmdError) (s : State) : (s.raise e).status = statusRaise e s.status := by
  simp only [State.raise, State.setStatus]
@[simp] theorem State.raise_parser (e : CmdError) (s : State) : (s.raise e).parser = s.parser := by
  simp only [State.raise, State.setStatus]
@[simp] theorem State.raise_bus (e : CmdError) (s : State) : (s.raise e).bus = s.bus := by
  simp only [State.raise, State.setStatus]
@[simp] theorem State.raise_chipSelect (e : CmdError) (s : State) : (s.raise e).chipSelect = s.chipSelect := by
  simp only [State.raise, State.setStatus]
@[simp] theorem State.raise_cmd (e : CmdError) (s : State) : (s.raise e).cmd = s.cmd := by
  simp only [State.raise, State.setStatus]
@[simp] theorem State.raise_rsp (e : CmdError) (s : State) : (s.raise e).rsp = s.rsp := by
  simp only [State.raise, State.setStatus]
@[simp] theorem State.raise_faultMark (e : CmdError) (s : State) : (s.raise e).faultMark = s.faultMark := by
  simp only [State.raise, State.setStatus]
@[simp] theorem State.raise_params (e : CmdError) (s : State) : (s.raise e).params = s.params := by
  simp only [State.raise, State.setStatus]
@[simp] theorem State.raise_ee (e : CmdError) (s : State) : (s.raise e).ee = s.ee := by
  simp only [State.raise, State.setStatus]
@[simp] theorem State.raise_panel (e : CmdError) (s : State) : (s.raise e).panel = s.panel := by
  simp only [State.raise, State.setStatus]
@[simp] theorem State.raise_ports (e : CmdError) (s : State) : (s.raise e).ports = s.ports := by
  simp only [State.raise, State.setStatus]
@[simp] theorem State.raise_portPlan (e : CmdError) (s : State) : (s.raise e).portPlan = s.portPlan := by
  simp only [State.raise, State.setStatus]
@[simp] theorem State.raise_device (e : CmdError) (s : State) : (s.raise e).device = s.device := by
  simp only [State.raise, State.setStatus]
@[simp] theorem State.raise_busEnabled (e : CmdError) (s : State) : (s.raise e).busEnabled = s.busEnabled := by
  simp only [State.raise, State.setStatus]
@[simp] theorem State.raise_resetIn (e : CmdError) (s : State) : (s.raise e).resetIn = s.resetIn := by
  simp only [State.raise, State.setStatus]
@[simp] theorem State.raise_draws (e : CmdError) (s : State) : (s.raise e).draws = s.draws := by
  simp only [State.raise, State.setStatus]

/-! ### State.clearError -/

@[simp] theorem State.clearError_vram (s : State) : s.clearError.vram = s.vram := by
  simp only [State.clearError, State.setStatus]
@[simp] theorem State.clearError_curCol (s : State) : s.clearError.curCol = s.curCol := by
  simp only [State.clearError, State.setStatus]
@[simp] theorem State.clearError_curRow (s : State) : s.clearError.curRow = s.curRow := by
  simp only [State.clearError, State.setStatus]
@[simp] theorem State.clearError_status (s : State) : s.clearError.status = statusClear := by
  simp only [State.clearError, State.setStatus]
@[simp] theorem State.clearError_parser (s : State) : s.clearError.parser = s.parser := by
  simp only [State.clearError, State.setStatus]
@[simp] theorem State.clearError_bus (s : State) : s.clearError.bus = s.bus := by
  simp only [State.clearError, State.setStatus]
@[simp] theorem State.clearError_chipSelect (s : State) : s.clearError.chipSelect = s.chipSelect := by
  simp only [State.clearError, State.setStatus]
@[simp] theorem State.clearError_cmd (s : State) : s.clearError.cmd = s.cmd := by
  simp only [State.clearError, State.setStatus]
@[simp] theorem State.clearError_rsp (s : State) : s.clearError.rsp = s.rsp := by
  simp only [State.clearError, State.setStatus]
@[simp] theorem State.clearError_faultMark (s : State) : s.clearError.faultMark = s.faultMark := by
  simp only [State.clearError, State.setStatus]
@[simp] theorem State.clearError_params (s : State) : s.clearError.params = s.params := by
  simp only [State.clearError, State.setStatus]
@[simp] theorem State.clearError_ee (s : State) : s.clearError.ee = s.ee := by
  simp only [State.clearError, State.setStatus]
@[simp] theorem State.clearError_panel (s : State) : s.clearError.panel = s.panel := by
  simp only [State.clearError, State.setStatus]
@[simp] theorem State.clearError_ports (s : State) : s.clearError.ports = s.ports := by
  simp only [State.clearError, State.setStatus]
@[simp] theorem State.clearError_portPlan (s : State) : s.clearError.portPlan = s.portPlan := by
  simp only [State.clearError, State.setStatus]
@[simp] theorem State.clearError_device (s : State) : s.clearError.device = s.device := by
  simp only [State.clearError, State.setStatus]
@[simp] theorem State.clearError_busEnabled (s : State) : s.clearError.busEnabled = s.busEnabled := by
  simp only [State.clearError, State.setStatus]
@[simp] theorem State.clearError_resetIn (s : State) : s.clearError.resetIn = s.resetIn := by
  simp only [State.clearError, State.setStatus]
@[simp] theorem State.clearError_draws (s : State) : s.clearError.draws = s.draws := by
  simp only [State.clearError, State.setStatus]

/-! ### State.logPorts -/

@[simp] theorem State.logPorts_vram (es : List PortEvent) (s : State) : (s.logPorts es).vram = s.vram := by
  simp only [State.logPorts, State.setPorts]
@[simp] theorem State.logPorts_curCol (es : List PortEvent) (s : State) : (s.logPorts es).curCol = s.curCol := by
  simp only [State.logPorts, State.setPorts]
@[simp] theorem State.logPorts_curRow (es : List PortEvent) (s : State) : (s.logPorts es).curRow = s.curRow := by
  simp only [State.logPorts, State.setPorts]
@[simp] theorem State.logPorts_status (es : List PortEvent) (s : State) : (s.logPorts es).status = s.status := by
  simp only [State.logPorts, State.setPorts]
@[simp] theorem State.logPorts_parser (es : List PortEvent) (s : State) : (s.logPorts es).parser = s.parser := by
  simp only [State.logPorts, State.setPorts]
@[simp] theorem State.logPorts_bus (es : List PortEvent) (s : State) : (s.logPorts es).bus = s.bus := by
  simp only [State.logPorts, State.setPorts]
@[simp] theorem State.logPorts_chipSelect (es : List PortEvent) (s : State) : (s.logPorts es).chipSelect = s.chipSelect := by
  simp only [State.logPorts, State.setPorts]
@[simp] theorem State.logPorts_cmd (es : List PortEvent) (s : State) : (s.logPorts es).cmd = s.cmd := by
  simp only [State.logPorts, State.setPorts]
@[simp] theorem State.logPorts_rsp (es : List PortEvent) (s : State) : (s.logPorts es).rsp = s.rsp := by
  simp only [State.logPorts, State.setPorts]
@[simp] theorem State.logPorts_faultMark (es : List PortEvent) (s : State) : (s.logPorts es).faultMark = s.faultMark := by
  simp only [State.logPorts, State.setPorts]
@[simp] theorem State.logPorts_params (es : List PortEvent) (s : State) : (s.logPorts es).params = s.params := by
  simp only [State.logPorts, State.setPorts]
@[simp] theorem State.logPorts_ee (es : List PortEvent) (s : State) : (s.logPorts es).ee = s.ee := by
  simp only [State.logPorts, State.setPorts]
@[simp] theorem State.logPorts_panel (es : List PortEvent) (s : State) : (s.logPorts es).panel = s.panel := by
  simp only [State.logPorts, State.setPorts]
@[simp] theorem State.logPorts_ports (es : List PortEvent) (s : State) : (s.logPorts es).ports = s.ports ++ es := by
  simp only [State.logPorts, State.setPorts]
@[simp] theorem State.logPorts_portPlan (es : List PortEvent) (s : State) : (s.logPorts es).portPlan = s.portPlan := by
  simp only [State.logPorts, State.setPorts]
@[simp] theorem State.logPorts_device (es : List PortEvent) (s : State) : (s.logPorts es).device = s.device := by
  simp only [State.logPorts, State.setPorts]
@[simp] theorem State.logPorts_busEnabled (es : List PortEvent) (s : State) : (s.logPorts es).busEnabled = s.busEnabled := by
  simp only [State.logPorts, State.setPorts]
@[simp] theorem State.logPorts_resetIn (es : List PortEvent) (s : State) : (s.logPorts es).resetIn = s.resetIn := by
  simp only [State.logPorts, State.setPorts]
@[simp] theorem State.logPorts_draws (es : List PortEvent) (s : State) : (s.logPorts es).draws = s.draws := by
  simp only [State.logPorts, State.setPorts]

/-! ### State.eeStore -/

@[simp] theorem State.eeStore_vram (a : Addr) (d : Byte) (s : State) : (s.eeStore a d).vram = s.vram := by
  simp only [State.eeStore, State.setEe]
@[simp] theorem State.eeStore_curCol (a : Addr) (d : Byte) (s : State) : (s.eeStore a d).curCol = s.curCol := by
  simp only [State.eeStore, State.setEe]
@[simp] theorem State.eeStore_curRow (a : Addr) (d : Byte) (s : State) : (s.eeStore a d).curRow = s.curRow := by
  simp only [State.eeStore, State.setEe]
@[simp] theorem State.eeStore_status (a : Addr) (d : Byte) (s : State) : (s.eeStore a d).status = s.status := by
  simp only [State.eeStore, State.setEe]
@[simp] theorem State.eeStore_parser (a : Addr) (d : Byte) (s : State) : (s.eeStore a d).parser = s.parser := by
  simp only [State.eeStore, State.setEe]
@[simp] theorem State.eeStore_bus (a : Addr) (d : Byte) (s : State) : (s.eeStore a d).bus = s.bus := by
  simp only [State.eeStore, State.setEe]
@[simp] theorem State.eeStore_chipSelect (a : Addr) (d : Byte) (s : State) : (s.eeStore a d).chipSelect = s.chipSelect := by
  simp only [State.eeStore, State.setEe]
@[simp] theorem State.eeStore_cmd (a : Addr) (d : Byte) (s : State) : (s.eeStore a d).cmd = s.cmd := by
  simp only [State.eeStore, State.setEe]
@[simp] theorem State.eeStore_rsp (a : Addr) (d : Byte) (s : State) : (s.eeStore a d).rsp = s.rsp := by
  simp only [State.eeStore, State.setEe]
@[simp] theorem State.eeStore_faultMark (a : Addr) (d : Byte) (s : State) : (s.eeStore a d).faultMark = s.faultMark := by
  simp only [State.eeStore, State.setEe]
@[simp] theorem State.eeStore_params (a : Addr) (d : Byte) (s : State) : (s.eeStore a d).params = s.params := by
  simp only [State.eeStore, State.setEe]
@[simp] theorem State.eeStore_ee (a : Addr) (d : Byte) (s : State) : (s.eeStore a d).ee = Memory.write s.params.eeErased s.ee a.toNat d := by
  simp only [State.eeStore, State.setEe]
@[simp] theorem State.eeStore_panel (a : Addr) (d : Byte) (s : State) : (s.eeStore a d).panel = s.panel := by
  simp only [State.eeStore, State.setEe]
@[simp] theorem State.eeStore_ports (a : Addr) (d : Byte) (s : State) : (s.eeStore a d).ports = s.ports := by
  simp only [State.eeStore, State.setEe]
@[simp] theorem State.eeStore_portPlan (a : Addr) (d : Byte) (s : State) : (s.eeStore a d).portPlan = s.portPlan := by
  simp only [State.eeStore, State.setEe]
@[simp] theorem State.eeStore_device (a : Addr) (d : Byte) (s : State) : (s.eeStore a d).device = s.device := by
  simp only [State.eeStore, State.setEe]
@[simp] theorem State.eeStore_busEnabled (a : Addr) (d : Byte) (s : State) : (s.eeStore a d).busEnabled = s.busEnabled := by
  simp only [State.eeStore, State.setEe]
@[simp] theorem State.eeStore_resetIn (a : Addr) (d : Byte) (s : State) : (s.eeStore a d).resetIn = s.resetIn := by
  simp only [State.eeStore, State.setEe]
@[simp] theorem State.eeStore_draws (a : Addr) (d : Byte) (s : State) : (s.eeStore a d).draws = s.draws := by
  simp only [State.eeStore, State.setEe]

/-! ### State.putColsAtCursor -/

@[simp] theorem State.putColsAtCursor_vram (bs : List Byte) (s : State) : (s.putColsAtCursor bs).vram = putCols s.curRow s.curCol bs s.vram := by
  simp only [State.putColsAtCursor, State.setVram]
@[simp] theorem State.putColsAtCursor_curCol (bs : List Byte) (s : State) : (s.putColsAtCursor bs).curCol = s.curCol := by
  simp only [State.putColsAtCursor, State.setVram]
@[simp] theorem State.putColsAtCursor_curRow (bs : List Byte) (s : State) : (s.putColsAtCursor bs).curRow = s.curRow := by
  simp only [State.putColsAtCursor, State.setVram]
@[simp] theorem State.putColsAtCursor_status (bs : List Byte) (s : State) : (s.putColsAtCursor bs).status = s.status := by
  simp only [State.putColsAtCursor, State.setVram]
@[simp] theorem State.putColsAtCursor_parser (bs : List Byte) (s : State) : (s.putColsAtCursor bs).parser = s.parser := by
  simp only [State.putColsAtCursor, State.setVram]
@[simp] theorem State.putColsAtCursor_bus (bs : List Byte) (s : State) : (s.putColsAtCursor bs).bus = s.bus := by
  simp only [State.putColsAtCursor, State.setVram]
@[simp] theorem State.putColsAtCursor_chipSelect (bs : List Byte) (s : State) : (s.putColsAtCursor bs).chipSelect = s.chipSelect := by
  simp only [State.putColsAtCursor, State.setVram]
@[simp] theorem State.putColsAtCursor_cmd (bs : List Byte) (s : State) : (s.putColsAtCursor bs).cmd = s.cmd := by
  simp only [State.putColsAtCursor, State.setVram]
@[simp] theorem State.putColsAtCursor_rsp (bs : List Byte) (s : State) : (s.putColsAtCursor bs).rsp = s.rsp := by
  simp only [State.putColsAtCursor, State.setVram]
@[simp] theorem State.putColsAtCursor_faultMark (bs : List Byte) (s : State) : (s.putColsAtCursor bs).faultMark = s.faultMark := by
  simp only [State.putColsAtCursor, State.setVram]
@[simp] theorem State.putColsAtCursor_params (bs : List Byte) (s : State) : (s.putColsAtCursor bs).params = s.params := by
  simp only [State.putColsAtCursor, State.setVram]
@[simp] theorem State.putColsAtCursor_ee (bs : List Byte) (s : State) : (s.putColsAtCursor bs).ee = s.ee := by
  simp only [State.putColsAtCursor, State.setVram]
@[simp] theorem State.putColsAtCursor_panel (bs : List Byte) (s : State) : (s.putColsAtCursor bs).panel = s.panel := by
  simp only [State.putColsAtCursor, State.setVram]
@[simp] theorem State.putColsAtCursor_ports (bs : List Byte) (s : State) : (s.putColsAtCursor bs).ports = s.ports := by
  simp only [State.putColsAtCursor, State.setVram]
@[simp] theorem State.putColsAtCursor_portPlan (bs : List Byte) (s : State) : (s.putColsAtCursor bs).portPlan = s.portPlan := by
  simp only [State.putColsAtCursor, State.setVram]
@[simp] theorem State.putColsAtCursor_device (bs : List Byte) (s : State) : (s.putColsAtCursor bs).device = s.device := by
  simp only [State.putColsAtCursor, State.setVram]
@[simp] theorem State.putColsAtCursor_busEnabled (bs : List Byte) (s : State) : (s.putColsAtCursor bs).busEnabled = s.busEnabled := by
  simp only [State.putColsAtCursor, State.setVram]
@[simp] theorem State.putColsAtCursor_resetIn (bs : List Byte) (s : State) : (s.putColsAtCursor bs).resetIn = s.resetIn := by
  simp only [State.putColsAtCursor, State.setVram]
@[simp] theorem State.putColsAtCursor_draws (bs : List Byte) (s : State) : (s.putColsAtCursor bs).draws = s.draws := by
  simp only [State.putColsAtCursor, State.setVram]

/-! ### State.hostSend -/

@[simp] theorem State.hostSend_vram (bs : List Byte) (s : State) : (s.hostSend bs).vram = s.vram := by
  simp only [State.hostSend, State.setCmd]
@[simp] theorem State.hostSend_curCol (bs : List Byte) (s : State) : (s.hostSend bs).curCol = s.curCol := by
  simp only [State.hostSend, State.setCmd]
@[simp] theorem State.hostSend_curRow (bs : List Byte) (s : State) : (s.hostSend bs).curRow = s.curRow := by
  simp only [State.hostSend, State.setCmd]
@[simp] theorem State.hostSend_status (bs : List Byte) (s : State) : (s.hostSend bs).status = s.status := by
  simp only [State.hostSend, State.setCmd]
@[simp] theorem State.hostSend_parser (bs : List Byte) (s : State) : (s.hostSend bs).parser = s.parser := by
  simp only [State.hostSend, State.setCmd]
@[simp] theorem State.hostSend_bus (bs : List Byte) (s : State) : (s.hostSend bs).bus = s.bus := by
  simp only [State.hostSend, State.setCmd]
@[simp] theorem State.hostSend_chipSelect (bs : List Byte) (s : State) : (s.hostSend bs).chipSelect = s.chipSelect := by
  simp only [State.hostSend, State.setCmd]
@[simp] theorem State.hostSend_cmd (bs : List Byte) (s : State) : (s.hostSend bs).cmd = s.cmd ++ bs := by
  simp only [State.hostSend, State.setCmd]
@[simp] theorem State.hostSend_rsp (bs : List Byte) (s : State) : (s.hostSend bs).rsp = s.rsp := by
  simp only [State.hostSend, State.setCmd]
@[simp] theorem State.hostSend_faultMark (bs : List Byte) (s : State) : (s.hostSend bs).faultMark = s.faultMark := by
  simp only [State.hostSend, State.setCmd]
@[simp] theorem State.hostSend_params (bs : List Byte) (s : State) : (s.hostSend bs).params = s.params := by
  simp only [State.hostSend, State.setCmd]
@[simp] theorem State.hostSend_ee (bs : List Byte) (s : State) : (s.hostSend bs).ee = s.ee := by
  simp only [State.hostSend, State.setCmd]
@[simp] theorem State.hostSend_panel (bs : List Byte) (s : State) : (s.hostSend bs).panel = s.panel := by
  simp only [State.hostSend, State.setCmd]
@[simp] theorem State.hostSend_ports (bs : List Byte) (s : State) : (s.hostSend bs).ports = s.ports := by
  simp only [State.hostSend, State.setCmd]
@[simp] theorem State.hostSend_portPlan (bs : List Byte) (s : State) : (s.hostSend bs).portPlan = s.portPlan := by
  simp only [State.hostSend, State.setCmd]
@[simp] theorem State.hostSend_device (bs : List Byte) (s : State) : (s.hostSend bs).device = s.device := by
  simp only [State.hostSend, State.setCmd]
@[simp] theorem State.hostSend_busEnabled (bs : List Byte) (s : State) : (s.hostSend bs).busEnabled = s.busEnabled := by
  simp only [State.hostSend, State.setCmd]
@[simp] theorem State.hostSend_resetIn (bs : List Byte) (s : State) : (s.hostSend bs).resetIn = s.resetIn := by
  simp only [State.hostSend, State.setCmd]
@[simp] theorem State.hostSend_draws (bs : List Byte) (s : State) : (s.hostSend bs).draws = s.draws := by
  simp only [State.hostSend, State.setCmd]

/-! ### State.assertReset -/

@[simp] theorem State.assertReset_vram (s : State) : s.assertReset.vram = s.vram := by
  simp only [State.assertReset, State.setResetIn]
@[simp] theorem State.assertReset_curCol (s : State) : s.assertReset.curCol = s.curCol := by
  simp only [State.assertReset, State.setResetIn]
@[simp] theorem State.assertReset_curRow (s : State) : s.assertReset.curRow = s.curRow := by
  simp only [State.assertReset, State.setResetIn]
@[simp] theorem State.assertReset_status (s : State) : s.assertReset.status = s.status := by
  simp only [State.assertReset, State.setResetIn]
@[simp] theorem State.assertReset_parser (s : State) : s.assertReset.parser = s.parser := by
  simp only [State.assertReset, State.setResetIn]
@[simp] theorem State.assertReset_bus (s : State) : s.assertReset.bus = s.bus := by
  simp only [State.assertReset, State.setResetIn]
@[simp] theorem State.assertReset_chipSelect (s : State) : s.assertReset.chipSelect = s.chipSelect := by
  simp only [State.assertReset, State.setResetIn]
@[simp] theorem State.assertReset_cmd (s : State) : s.assertReset.cmd = s.cmd := by
  simp only [State.assertReset, State.setResetIn]
@[simp] theorem State.assertReset_rsp (s : State) : s.assertReset.rsp = s.rsp := by
  simp only [State.assertReset, State.setResetIn]
@[simp] theorem State.assertReset_faultMark (s : State) : s.assertReset.faultMark = s.faultMark := by
  simp only [State.assertReset, State.setResetIn]
@[simp] theorem State.assertReset_params (s : State) : s.assertReset.params = s.params := by
  simp only [State.assertReset, State.setResetIn]
@[simp] theorem State.assertReset_ee (s : State) : s.assertReset.ee = s.ee := by
  simp only [State.assertReset, State.setResetIn]
@[simp] theorem State.assertReset_panel (s : State) : s.assertReset.panel = s.panel := by
  simp only [State.assertReset, State.setResetIn]
@[simp] theorem State.assertReset_ports (s : State) : s.assertReset.ports = s.ports := by
  simp only [State.assertReset, State.setResetIn]
@[simp] theorem State.assertReset_portPlan (s : State) : s.assertReset.portPlan = s.portPlan := by
  simp only [State.assertReset, State.setResetIn]
@[simp] theorem State.assertReset_device (s : State) : s.assertReset.device = s.device := by
  simp only [State.assertReset, State.setResetIn]
@[simp] theorem State.assertReset_busEnabled (s : State) : s.assertReset.busEnabled = s.busEnabled := by
  simp only [State.assertReset, State.setResetIn]
@[simp] theorem State.assertReset_resetIn (s : State) : s.assertReset.resetIn = true := by
  simp only [State.assertReset, State.setResetIn]
@[simp] theorem State.assertReset_draws (s : State) : s.assertReset.draws = s.draws := by
  simp only [State.assertReset, State.setResetIn]

/-! ### State.enableBus -/

@[simp] theorem State.enableBus_vram (b : Bool) (s : State) : (s.enableBus b).vram = s.vram := by
  simp only [State.enableBus, State.setBusEnabled]
@[simp] theorem State.enableBus_curCol (b : Bool) (s : State) : (s.enableBus b).curCol = s.curCol := by
  simp only [State.enableBus, State.setBusEnabled]
@[simp] theorem State.enableBus_curRow (b : Bool) (s : State) : (s.enableBus b).curRow = s.curRow := by
  simp only [State.enableBus, State.setBusEnabled]
@[simp] theorem State.enableBus_status (b : Bool) (s : State) : (s.enableBus b).status = s.status := by
  simp only [State.enableBus, State.setBusEnabled]
@[simp] theorem State.enableBus_parser (b : Bool) (s : State) : (s.enableBus b).parser = s.parser := by
  simp only [State.enableBus, State.setBusEnabled]
@[simp] theorem State.enableBus_bus (b : Bool) (s : State) : (s.enableBus b).bus = s.bus := by
  simp only [State.enableBus, State.setBusEnabled]
@[simp] theorem State.enableBus_chipSelect (b : Bool) (s : State) : (s.enableBus b).chipSelect = s.chipSelect := by
  simp only [State.enableBus, State.setBusEnabled]
@[simp] theorem State.enableBus_cmd (b : Bool) (s : State) : (s.enableBus b).cmd = s.cmd := by
  simp only [State.enableBus, State.setBusEnabled]
@[simp] theorem State.enableBus_rsp (b : Bool) (s : State) : (s.enableBus b).rsp = s.rsp := by
  simp only [State.enableBus, State.setBusEnabled]
@[simp] theorem State.enableBus_faultMark (b : Bool) (s : State) : (s.enableBus b).faultMark = s.faultMark := by
  simp only [State.enableBus, State.setBusEnabled]
@[simp] theorem State.enableBus_params (b : Bool) (s : State) : (s.enableBus b).params = s.params := by
  simp only [State.enableBus, State.setBusEnabled]
@[simp] theorem State.enableBus_ee (b : Bool) (s : State) : (s.enableBus b).ee = s.ee := by
  simp only [State.enableBus, State.setBusEnabled]
@[simp] theorem State.enableBus_panel (b : Bool) (s : State) : (s.enableBus b).panel = s.panel := by
  simp only [State.enableBus, State.setBusEnabled]
@[simp] theorem State.enableBus_ports (b : Bool) (s : State) : (s.enableBus b).ports = s.ports := by
  simp only [State.enableBus, State.setBusEnabled]
@[simp] theorem State.enableBus_portPlan (b : Bool) (s : State) : (s.enableBus b).portPlan = s.portPlan := by
  simp only [State.enableBus, State.setBusEnabled]
@[simp] theorem State.enableBus_device (b : Bool) (s : State) : (s.enableBus b).device = s.device := by
  simp only [State.enableBus, State.setBusEnabled]
@[simp] theorem State.enableBus_busEnabled (b : Bool) (s : State) : (s.enableBus b).busEnabled = b := by
  simp only [State.enableBus, State.setBusEnabled]
@[simp] theorem State.enableBus_resetIn (b : Bool) (s : State) : (s.enableBus b).resetIn = s.resetIn := by
  simp only [State.enableBus, State.setBusEnabled]
@[simp] theorem State.enableBus_draws (b : Bool) (s : State) : (s.enableBus b).draws = s.draws := by
  simp only [State.enableBus, State.setBusEnabled]

/-! ### State.takeReset -/

@[simp] theorem State.takeReset_vram (s : State) : s.takeReset.vram = vramUnspecified s.draws := by
  simp only [State.takeReset]
@[simp] theorem State.takeReset_curCol (s : State) : s.takeReset.curCol = 0 := by
  simp only [State.takeReset]
@[simp] theorem State.takeReset_curRow (s : State) : s.takeReset.curRow = 0 := by
  simp only [State.takeReset]
@[simp] theorem State.takeReset_status (s : State) : s.takeReset.status = statusClear := by
  simp only [State.takeReset]
@[simp] theorem State.takeReset_parser (s : State) : s.takeReset.parser = .idle := by
  simp only [State.takeReset]
@[simp] theorem State.takeReset_bus (s : State) : s.takeReset.bus = .idle := by
  simp only [State.takeReset]
@[simp] theorem State.takeReset_chipSelect (s : State) : s.takeReset.chipSelect = false := by
  simp only [State.takeReset]
@[simp] theorem State.takeReset_cmd (s : State) : s.takeReset.cmd = [] := by
  simp only [State.takeReset]
@[simp] theorem State.takeReset_rsp (s : State) : s.takeReset.rsp = [] := by
  simp only [State.takeReset]
@[simp] theorem State.takeReset_faultMark (s : State) : s.takeReset.faultMark = s.faultMark := by
  simp only [State.takeReset]
@[simp] theorem State.takeReset_params (s : State) : s.takeReset.params = s.params := by
  simp only [State.takeReset]
@[simp] theorem State.takeReset_ee (s : State) : s.takeReset.ee = s.eeAfterReset := by
  simp only [State.takeReset]
@[simp] theorem State.takeReset_panel (s : State) : s.takeReset.panel = s.panel := by
  simp only [State.takeReset]
@[simp] theorem State.takeReset_ports (s : State) : s.takeReset.ports = s.ports := by
  simp only [State.takeReset]
@[simp] theorem State.takeReset_portPlan (s : State) : s.takeReset.portPlan = s.portPlan := by
  simp only [State.takeReset]
@[simp] theorem State.takeReset_device (s : State) : s.takeReset.device = s.device := by
  simp only [State.takeReset]
@[simp] theorem State.takeReset_busEnabled (s : State) : s.takeReset.busEnabled = s.busEnabled := by
  simp only [State.takeReset]
@[simp] theorem State.takeReset_resetIn (s : State) : s.takeReset.resetIn = false := by
  simp only [State.takeReset]
@[simp] theorem State.takeReset_draws (s : State) : s.takeReset.draws = s.draws + 1 := by
  simp only [State.takeReset]

end Sys2Proof.Machine
end

