-- ==== Sys2Proof/Laws/Ops.lean ====
section
/-!
SUPPORT. What each shared operation does, said once: the proofs cite these and do not unfold the operations.
-/

namespace Sys2Proof.Machine

/-! ## STATUS (R28, R281) -/

/-- While `ERR` is 1 a later error changes nothing. -/
theorem statusRaise_of_err {e : CmdError} {st : Byte} (h : statusErr st = true) : statusRaise e st = st := by
  simp [statusRaise, h]

/-- The first error: `ERR` 1, `ERRCODE` its code, the reserved bits as they were. -/
theorem statusRaise_of_clear {e : CmdError} {st : Byte} (h : statusErr st = false) :
    statusErr (statusRaise e st) = true ∧ statusCode (statusRaise e st) = errorCode e ∧
      statusReserved (statusRaise e st) = statusReserved st := by
  simp only [statusRaise, h, Bool.false_eq_true, if_false]
  refine ⟨?_, ?_, ?_⟩
  · simp only [statusErr, BitVec.getLsbD_append]; simp
  · apply BitVec.eq_of_getLsbD_eq; intro i hi
    simp only [statusCode, BitVec.getLsbD_extractLsb', BitVec.getLsbD_append]
    interval_cases i <;> simp
  · apply BitVec.eq_of_getLsbD_eq; intro i hi
    simp only [statusReserved, BitVec.getLsbD_extractLsb', BitVec.getLsbD_append]
    interval_cases i <;> simp

/-- A legal `STATUS` stays legal. -/
theorem statusLegal_raise {st : Byte} (h : statusLegal st = true) (e : CmdError) : statusLegal (statusRaise e st) = true := by
  cases hs : statusErr st with
  | true => rwa [statusRaise_of_err hs]
  | false =>
    obtain ⟨h1, h2, h3⟩ := statusRaise_of_clear (e := e) hs
    simp only [statusLegal, Bool.and_eq_true] at h
    simp only [statusLegal, h1, h2, h3, h.1, if_true, Bool.true_and]
    cases e <;> decide

@[simp] theorem statusLegal_clear : statusLegal statusClear = true := by decide

/-! ## Driving a port (R67, R232, R310) -/

/-- What driving the events of a run on a port that works can do. Either all of them complete and the plan
counts them down; or the bus gets stuck; or RESET comes. In each case only the record of the ports, the plan
and the RESET input change. -/
theorem driveEnabled_cases (port : Port) (es : List PortEvent) (s : State) :
    (s.portPlan = .free ∧ s.driveEnabled port es = (s.logPorts es, none)) ∨
    (∃ n, s.portPlan = .stuckAfter n ∧ port = .panelLink ∧ s.driveEnabled port es = (s.logPorts es, none)) ∨
    (∃ n, s.portPlan = .stuckAfter n ∧ port = .eepromBus ∧ es.length ≤ n ∧
      s.driveEnabled port es = ((s.logPorts es).setPortPlan (.stuckAfter (n - es.length)), none)) ∨
    (∃ n, s.portPlan = .stuckAfter n ∧ port = .eepromBus ∧ n < es.length ∧
      s.driveEnabled port es = ((s.logPorts (stuckEvents n es)).setPortPlan (.stuckAfter 0), some (n + 1))) ∨
    (∃ n, s.portPlan = .resetAfter n ∧ es.length ≤ n ∧
      s.driveEnabled port es = ((s.logPorts es).setPortPlan (.resetAfter (n - es.length)), none)) ∨
    (∃ n, s.portPlan = .resetAfter n ∧ n < es.length ∧
      s.driveEnabled port es = (((s.logPorts (es.take n)).setPortPlan .free).setResetIn true, some n)) := by
  unfold State.driveEnabled
  split
  · next h => exact .inl ⟨h, rfl⟩
  · next n h => exact .inr (.inl ⟨n, h, rfl, rfl⟩)
  · next n h =>
    split
    · next hn => exact .inr (.inr (.inl ⟨n, h, rfl, hn, rfl⟩))
    · next hn => exact .inr (.inr (.inr (.inl ⟨n, h, rfl, by omega, rfl⟩)))
  · next n h =>
    split
    · next hn => exact .inr (.inr (.inr (.inr (.inl ⟨n, h, hn, rfl⟩))))
    · next hn => exact .inr (.inr (.inr (.inr (.inr ⟨n, h, by omega, rfl⟩))))

/-- Driving the events of a run on a bus that is not enabled: RESET comes before the first, or the first is
driven and never completes (R231). No event ever completes. -/
theorem driveDisabled_cases (es : List PortEvent) (s : State) :
    (s.portPlan = .resetAfter 0 ∧ s.driveDisabled es = ((s.setPortPlan .free).setResetIn true, some 0)) ∨
    (s.portPlan ≠ .resetAfter 0 ∧ s.driveDisabled es = (s.logPorts (stuckEvents 0 es), some 1)) := by
  unfold State.driveDisabled
  split
  · next h => exact .inl ⟨h, rfl⟩
  · next n h => exact .inr ⟨by simp [h], rfl⟩
  · next h => exact .inr ⟨by simp [h], rfl⟩
  · next n h => exact .inr ⟨by simp [h], rfl⟩

@[simp] theorem drive_panelLink (es : List PortEvent) (s : State) :
    s.drive .panelLink es = s.driveEnabled .panelLink es := by
  unfold State.drive; split <;> simp_all

theorem drive_enabled {s : State} (h : s.busEnabled = true) (port : Port) (es : List PortEvent) :
    s.drive port es = s.driveEnabled port es := by
  cases port <;> simp [State.drive, h]

theorem drive_disabled {s : State} (h : s.busEnabled = false) (es : List PortEvent) :
    s.drive .eepromBus es = s.driveDisabled es := by
  simp [State.drive, h]

/-- The EEPROM bus, whatever the surroundings: the events complete, or they do not, and only the record of the
ports, the plan and the RESET input change. -/
theorem drive_eepromBus_frame (es : List PortEvent) (s : State) :
    (∃ t : State, s.drive .eepromBus es = (t, none) ∧ t = { s with ports := t.ports, portPlan := t.portPlan }) ∨
    (∃ (t : State) (n : Nat), s.drive .eepromBus es = (t, some n) ∧
      t = { s with ports := t.ports, portPlan := t.portPlan, resetIn := t.resetIn }) := by
  rcases Bool.eq_false_or_eq_true s.busEnabled with hb | hb
  · rw [drive_enabled hb]
    rcases driveEnabled_cases .eepromBus es s with
      ⟨-, h⟩ | ⟨n, -, -, h⟩ | ⟨n, -, -, -, h⟩ | ⟨n, -, -, -, h⟩ | ⟨n, -, -, h⟩ | ⟨n, -, -, h⟩ <;>
      rw [h] <;> first | exact .inl ⟨_, rfl, rfl⟩ | exact .inr ⟨_, _, rfl, rfl⟩
  · rw [drive_disabled hb]
    rcases driveDisabled_cases es s with ⟨-, h⟩ | ⟨-, h⟩ <;> rw [h] <;> exact .inr ⟨_, _, rfl, rfl⟩

/-- With the ports free and the bus enabled every event completes and is recorded, and nothing else happens. -/
theorem drive_free {s : State} (h : s.portPlan = .free) (hb : s.busEnabled = true) (port : Port)
    (es : List PortEvent) : s.drive port es = (s.logPorts es, none) := by
  simp [drive_enabled hb, State.driveEnabled, h]

/-! ## EEPROM transactions (R222, R223) -/

theorem busReply_present {s : State} (h : s.device = .present) (a : Addr) : s.busReply a = s.eeByte a := by
  simp [State.busReply, h]

theorem countReply_present {s : State} (h : s.device = .present) : s.countReply = s := by
  simp [State.countReply, h]

/-- A read transaction on a working bus returns `EE[a]` and changes nothing but the record of the ports
(R72, R222). -/
theorem eeRead_done {s : State} (hp : s.portPlan = .free) (hb : s.busEnabled = true) (hd : s.device = .present)
    (a : Addr) :
    s.eeRead a = (s.logPorts (readEvents s.params a (s.eeByte a)), some (s.eeByte a)) := by
  simp [State.eeRead, countReply_present hd, busReply_present hd, drive_free hp hb]

/-- A write transaction on a working bus stores the byte (R72, R223). -/
theorem eeWrite_done {s : State} (hp : s.portPlan = .free) (hb : s.busEnabled = true) (hd : s.device = .present)
    (a : Addr) (d : Byte) :
    s.eeWrite a d = ((s.logPorts (writeEvents s.params a d)).eeStore a d, true) := by
  simp [State.eeWrite, State.deviceStore, drive_free hp hb, State.logPorts, hd]
  rfl

/-- What a read transaction can do, whatever the surroundings (R222, R224, R232, R310): it completes with
the byte the bus sent, or it does not complete. Nothing but the fields named changes; the EEPROM's content
never does (R62). -/
theorem eeRead_cases (a : Addr) (s : State) :
    (∃ t : State, s.eeRead a = (t, some (s.busReply a)) ∧
      t = { s with ports := t.ports, portPlan := t.portPlan, draws := t.draws }) ∨
    (∃ t : State, s.eeRead a = (t, none) ∧
      t = { s with ports := t.ports, portPlan := t.portPlan, resetIn := t.resetIn, bus := t.bus, draws := t.draws }) := by
  unfold State.eeRead
  have hc : s.countReply = { s with draws := s.countReply.draws } := by
    unfold State.countReply; split <;> rfl
  rcases drive_eepromBus_frame (readEvents s.params a (s.busReply a)) s.countReply with ⟨t, h, ht⟩ | ⟨t, n, h, ht⟩
  · rw [h]; exact .inl ⟨_, rfl, by rw [ht, hc]⟩
  · rw [h]; exact .inr ⟨_, rfl, by rw [ht, hc]; rfl⟩

/-- What a write transaction can do, whatever the surroundings (R223, R224, R232, R310): it completes and
the byte is stored if a device is there, or it does not complete and nothing is stored yet (R72). -/
theorem eeWrite_cases (a : Addr) (d : Byte) (s : State) :
    (∃ t : State, s.eeWrite a d = (t, true) ∧
      t = { s with
        ports := t.ports, portPlan := t.portPlan,
        ee := (s.deviceStore a d).ee }) ∨
    (∃ t : State, s.eeWrite a d = (t, false) ∧
      t = { s with ports := t.ports, portPlan := t.portPlan, resetIn := t.resetIn, bus := t.bus }) := by
  unfold State.eeWrite
  rcases drive_eepromBus_frame (writeEvents s.params a d) s with ⟨t, h, ht⟩ | ⟨t, n, h, ht⟩
  · rw [h]; exact .inl ⟨_, rfl, by rw [ht]; rfl⟩
  · rw [h]; exact .inr ⟨_, rfl, by rw [ht]; rfl⟩

/-- A read transaction over whose events the bus gets stuck or does not (R232): with 9 events left it
completes, with fewer the event after those is driven and never completes. -/
theorem eeRead_stuckAfter {s : State} {n : Nat} (hp : s.portPlan = .stuckAfter n) (hb : s.busEnabled = true)
    (a : Addr) :
    (9 ≤ n → s.device = .present →
      s.eeRead a =
        ((s.logPorts (readEvents s.params a (s.eeByte a))).setPortPlan (.stuckAfter (n - 9)), some (s.eeByte a))) ∧
    (n < 9 → ∃ es, es.length = n + 1 ∧
      s.eeRead a =
        (((s.countReply.logPorts es).setPortPlan (.stuckAfter 0)).setBus (.reading a (n + 1)), none)) := by
  have hl : ∀ d, (readEvents s.params a d).length = 9 := fun _ => rfl
  have hc : s.countReply.portPlan = .stuckAfter n ∧ s.countReply.busEnabled = true := by
    unfold State.countReply; split <;> simp [hp, hb]
  refine ⟨fun h hd => ?_, fun h => ⟨stuckEvents n (readEvents s.params a (s.busReply a)), ?_, ?_⟩⟩
  · simp [State.eeRead, drive_enabled, State.driveEnabled, countReply_present hd, busReply_present hd, hp, hb, hl, h]
  · simp only [stuckEvents, List.length_append, List.length_take, List.length_map, List.length_drop, hl]; omega
  · simp only [State.eeRead, drive_enabled hc.2, State.driveEnabled, hc.1, hl, if_neg (show ¬9 ≤ n by omega)]; simp

/-- A write transaction over whose events the bus gets stuck or does not (R232): with 7 events left it
completes, with fewer the event after those is driven and never completes, and nothing is stored. -/
theorem eeWrite_stuckAfter {s : State} {n : Nat} (hp : s.portPlan = .stuckAfter n) (hb : s.busEnabled = true)
    (a : Addr) (d : Byte) :
    (7 ≤ n →
      s.eeWrite a d =
        (((s.logPorts (writeEvents s.params a d)).setPortPlan (.stuckAfter (n - 7))).deviceStore a d, true)) ∧
    (n < 7 → ∃ es, es.length = n + 1 ∧
      s.eeWrite a d = (((s.logPorts es).setPortPlan (.stuckAfter 0)).setBus (.writing a d (n + 1)), false)) := by
  have hl : (writeEvents s.params a d).length = 7 := rfl
  refine ⟨fun h => ?_, fun h => ⟨stuckEvents n (writeEvents s.params a d), ?_, ?_⟩⟩
  · simp [State.eeWrite, drive_enabled, State.driveEnabled, hp, hb, hl, h]
  · simp only [stuckEvents, List.length_append, List.length_take, List.length_map, List.length_drop, hl]; omega
  · simp only [State.eeWrite, drive_enabled hb, State.driveEnabled, hp, hl, if_neg (show ¬7 ≤ n by omega)]; simp

/-- A write transaction that RESET may cut (R310): with 7 events left before RESET it completes, with fewer only
those are driven, nothing is stored yet, and RESET is asserted. -/
theorem eeWrite_resetAfter {s : State} {n : Nat} (hp : s.portPlan = .resetAfter n) (hb : s.busEnabled = true)
    (a : Addr) (d : Byte) :
    (7 ≤ n →
      s.eeWrite a d =
        (((s.logPorts (writeEvents s.params a d)).setPortPlan (.resetAfter (n - 7))).deviceStore a d, true)) ∧
    (n < 7 →
      s.eeWrite a d =
        ((((s.logPorts ((writeEvents s.params a d).take n)).setPortPlan .free).setResetIn true).setBus
          (if n = 0 then .idle else .writing a d n), false)) := by
  have hl : (writeEvents s.params a d).length = 7 := rfl
  refine ⟨fun h => ?_, fun h => ?_⟩
  · simp [State.eeWrite, drive_enabled, State.driveEnabled, hp, hb, hl, h]
  · simp only [State.eeWrite, drive_enabled hb, State.driveEnabled, hp, hl, if_neg (show ¬7 ≤ n by omega)]

/-- On a bus that is not enabled a read transaction does not complete: its first event is driven and never
completes (R231). -/
theorem eeRead_disabled {s : State} (hb : s.busEnabled = false) (hp : s.portPlan ≠ .resetAfter 0) (a : Addr) :
    s.eeRead a = ((s.countReply.logPorts [.busStart]).setBus (.reading a 1), none) := by
  have hc : s.countReply.portPlan = s.portPlan ∧ s.countReply.busEnabled = false := by
    unfold State.countReply; split <;> simp [hb]
  obtain ⟨h, -⟩ | ⟨-, h⟩ := driveDisabled_cases (readEvents s.params a (s.busReply a)) s.countReply
  · exact absurd (hc.1 ▸ h) hp
  · rw [State.eeRead, drive_disabled hc.2, h]; rfl

/-- On a bus that is not enabled a write transaction does not complete, and nothing is stored (R231). -/
theorem eeWrite_disabled {s : State} (hb : s.busEnabled = false) (hp : s.portPlan ≠ .resetAfter 0) (a : Addr)
    (d : Byte) : s.eeWrite a d = ((s.logPorts [.busStart]).setBus (.writing a d 1), false) := by
  obtain ⟨h, -⟩ | ⟨-, h⟩ := driveDisabled_cases (writeEvents s.params a d) s
  · exact absurd h hp
  · rw [State.eeWrite, drive_disabled hb, h]; rfl

theorem deviceStore_present {s : State} (h : s.device = .present) (a : Addr) (d : Byte) :
    s.deviceStore a d = s.eeStore a d := by
  simp only [State.deviceStore, h]; rfl

theorem deviceStore_silent {s : State} (h : s.device = .silent) (a : Addr) (d : Byte) : s.deviceStore a d = s := by
  simp only [State.deviceStore, h]; rfl

/-- After a store, the address reads the byte stored (R72). -/
theorem eeByte_eeStore_same {s : State} (h : Memory.wf s.params.eeErased s.ee = true) (a : Addr) (d : Byte) :
    (s.eeStore a d).eeByte a = d := Memory.read_write_same h a.toNat d

/-- A store leaves every other address alone. -/
theorem eeByte_eeStore_other (s : State) {a a' : Addr} (h : a' ≠ a) (d : Byte) :
    (s.eeStore a d).eeByte a' = s.eeByte a' :=
  Memory.read_write_other _ _ (fun e => h (BitVec.eq_of_toNat_eq e)) d

/-- A store keeps the canonical form. -/
theorem memory_wf_eeStore {s : State} (h : Memory.wf s.params.eeErased s.ee = true) (a : Addr) (d : Byte) :
    Memory.wf (s.eeStore a d).params.eeErased (s.eeStore a d).ee = true := Memory.wf_write h a d

/-- RESET keeps the canonical form. -/
theorem memory_wf_eeAfterReset {s : State} (h : Memory.wf s.params.eeErased s.ee = true) :
    Memory.wf s.params.eeErased s.eeAfterReset = true := by
  unfold State.eeAfterReset
  split
  · exact Memory.wf_write h _ _
  · exact h
  · exact h

/-! ## Taking a header (R27, R80) -/

/-- What taking a header answers: it holds with all bytes received, or it has the 8 bytes. -/
theorem fetch_cases (got : List Byte) (s : State) :
    (s.cmd.length < 8 - got.length ∧
      s.fetch got = .held ((s.setCmd []).setParser (headerSoFar (got ++ s.cmd)))) ∨
    (∃ h rest, s.cmd = h ++ rest ∧ h.length = 8 - got.length ∧
      s.fetch got = .word (wordOfBytes (got ++ h)) ((s.setCmd rest).setParser .idle)) := by
  unfold State.fetch
  split
  · next h => exact .inl ⟨splitBytes_none_iff.mp h, rfl⟩
  · next h rest hs =>
    obtain ⟨h1, h2⟩ := splitBytes_some hs
    exact .inr ⟨h, rest, h1, h2, rfl⟩

/-! ## The cursor (R23) -/

theorem rowBelow_le (row : Nat) : rowBelow row ≤ 5 := by unfold rowBelow; omega

theorem rowAbove_le (row : Nat) : rowAbove row ≤ 5 := by unfold rowAbove; omega

/-- An advance moves the cursor only, and leaves it in its ranges. -/
theorem advanceCursor_cases (w : Nat) (s : State) :
    (s.curCol + w ≤ 83 ∧ s.advanceCursor w = s.setCursor (s.curCol + w) s.curRow) ∨
    (83 < s.curCol + w ∧ s.advanceCursor w = s.setCursor 0 (rowBelow s.curRow)) := by
  unfold State.advanceCursor
  split
  · next h => exact .inr ⟨h, rfl⟩
  · next h => exact .inl ⟨by omega, rfl⟩

/-- A step back moves the cursor only. -/
theorem cursorBack_cases (s : State) :
    (6 ≤ s.curCol ∧ s.cursorBack = s.setCursor (s.curCol - 6) s.curRow) ∨
    (s.curCol < 6 ∧ s.cursorBack = s.setCursor 78 (rowAbove s.curRow)) := by
  unfold State.cursorBack
  split
  · next h => exact .inl ⟨h, rfl⟩
  · next h => exact .inr ⟨by omega, rfl⟩

/-! ## One step -/

/-- What one step can do: serve RESET, go on with a held command, or take a header. -/
theorem step_cases (s : State) :
    (s.resetIn = true ∧ step s = .next s.takeReset) ∨
    (s.resetIn = false ∧ parserOk s.parser = false ∧ step s = .fault .badParser) ∨
    (s.resetIn = false ∧ s.parser = .idle ∧ step s = fetchAndRun [] s) ∨
    (∃ got, s.resetIn = false ∧ parserOk s.parser = true ∧ s.parser = .header got ∧ step s = fetchAndRun got s) ∨
    (∃ cw p, s.resetIn = false ∧ parserOk s.parser = true ∧ s.parser = .exec cw p ∧
      step s = .next (resumeExec cw p s)) := by
  unfold step
  cases hr : s.resetIn with
  | true => simp
  | false =>
    cases hp : s.parser with
    | idle => simp [parserOk]
    | header got => cases ho : parserOk (.header got) <;> simp
    | exec cw p => cases ho : parserOk (.exec cw p) <;> simp

end Sys2Proof.Machine
end

