-- ==== Sys2Proof/Laws/Commands.lean ====
section
/-!
SUPPORT. What the shared parts of the commands do: point lists, glyph columns, the character step, and the
frame of every loop over payload bytes, addresses and transactions.
-/

namespace Sys2Proof.Machine

/-! ## Points and columns -/

/-- After plotting a point list, a pixel of the screen is `on` if it is in the list, and as before if not (R140). -/
theorem pixRead_plotAll (pts : List (Int × Int)) (on : Bool) (v : Vram) {x y : Int} (h : onScreen x y = true) :
    pixRead (plotAll pts on v) x y = if (x, y) ∈ pts then on else pixRead v x y := by
  induction pts generalizing v with
  | nil => rfl
  | cons p ps ih =>
    have hstep : plotAll (p :: ps) on v = plotAll ps on (plot p.1 p.2 on v) := rfl
    rw [hstep, ih]
    by_cases hmem : (x, y) ∈ ps
    · simp [hmem]
    · by_cases hp : (x, y) = p
      · subst hp; simp [plot, pixRead_pix_same h]
      · have : ¬(x = p.1 ∧ y = p.2) := fun e => hp (Prod.ext e.1 e.2)
        simp [hmem, hp, plot, pixRead_pix_other h this]

theorem putCols_cons (p c : Nat) (b : Byte) (bs : List Byte) (v : Vram) :
    putCols p c (b :: bs) v = putCols p (c + 1) bs (putCol p c b v) := rfl

/-- After writing a run of columns, a byte of the screen is the one of the run that stands there, or as
before (R180). -/
theorem vramRead_putCols {p q d : Nat} (hq : q < 6) (hd : d < 84) (bs : List Byte) (c : Nat) (v : Vram) :
    vramRead (putCols p c bs v) (q * 84 + d) =
      if q = p ∧ c ≤ d ∧ d < c + bs.length then bs[d - c]?.getD 0#8 else vramRead v (q * 84 + d) := by
  induction bs generalizing c v with
  | nil => simp [putCols]
  | cons b bs ih =>
    rw [putCols_cons, ih]
    by_cases hp : q = p
    · subst hp
      by_cases hc : d = c
      · subst hc
        rw [if_neg (by omega), if_pos (by simp)]
        simp [vramRead_putCol_same v hq hd]
      · rw [vramRead_putCol_other v hd (fun e => hc e.2)]
        by_cases hr : c + 1 ≤ d ∧ d < c + 1 + bs.length
        · have hk : d - c = (d - (c + 1)) + 1 := by omega
          rw [if_pos ⟨rfl, hr⟩, if_pos ⟨rfl, by omega, by simp; omega⟩, hk, List.getElem?_cons_succ]
        · rw [if_neg (fun e => hr e.2), if_neg (fun e => hr ⟨by omega, by have := e.2.2; simp at this; omega⟩)]
    · rw [vramRead_putCol_other v hd (fun e => hp e.1), if_neg (fun e => hp e.1), if_neg (fun e => hp e.1)]

/-! ## The character step (R182) -/

/-- A character changes nothing but the framebuffer and the cursor. -/
theorem charStep_frame (code : Byte) (s : State) :
    charStep code s =
      { s with
        vram := (charStep code s).vram, curCol := (charStep code s).curCol, curRow := (charStep code s).curRow } := by
  unfold charStep
  split
  · rfl
  · split
    · rcases cursorBack_cases s with ⟨-, h⟩ | ⟨-, h⟩ <;> rw [h] <;> rfl
    · split
      · rcases advanceCursor_cases 6 (s.putColsAtCursor (glyphCell s.params code)) with ⟨-, h⟩ | ⟨-, h⟩ <;>
          rw [h] <;> rfl
      · rfl

/-- A character keeps the cursor in its ranges (R23). -/
theorem charStep_cursor {code : Byte} {s : State} (hc : s.curCol ≤ 83) (hr : s.curRow ≤ 5) :
    (charStep code s).curCol ≤ 83 ∧ (charStep code s).curRow ≤ 5 := by
  have hb := rowBelow_le s.curRow
  have ha := rowAbove_le s.curRow
  unfold charStep
  split
  · exact ⟨Nat.zero_le _, hb⟩
  · split
    · rcases cursorBack_cases s with ⟨-, h⟩ | ⟨-, h⟩ <;> rw [h] <;>
        simp only [State.putColsAtCursor, State.setVram_curCol, State.setVram_curRow, State.setCursor_curCol,
          State.setCursor_curRow] <;> omega
    · split
      · rcases advanceCursor_cases 6 (s.putColsAtCursor (glyphCell s.params code)) with ⟨h1, h⟩ | ⟨h1, h⟩ <;>
          rw [h] <;> simp only [State.putColsAtCursor, State.setVram_curCol, State.setVram_curRow,
            State.setCursor_curCol, State.setCursor_curRow] at * <;> omega
      · exact ⟨hc, hr⟩

/-- A large cell changes nothing but the framebuffer and the cursor. -/
theorem putLarge_frame (upper lower : List Byte) (w : Nat) (s : State) :
    s.putLarge upper lower w =
      { s with
        vram := putCols (s.curRow + 1) s.curCol lower (putCols s.curRow s.curCol upper s.vram)
        curCol := if s.curCol + w > 83 then 0 else s.curCol + w
        curRow := if s.curCol + w > 83 then rowBelow s.curRow else s.curRow } := by
  unfold State.putLarge
  rcases advanceCursor_cases w (s.setVram (putCols (s.curRow + 1) s.curCol lower (putCols s.curRow s.curCol upper s.vram)))
    with ⟨h, e⟩ | ⟨h, e⟩ <;> rw [e] <;> simp only [State.setVram_curCol] at h
  · rw [if_neg (by omega), if_neg (by omega)]; rfl
  · rw [if_pos (by omega), if_pos (by omega)]; rfl

/-! ## Payload loops (R60, R84) -/

/-- LOADBITMAP changes nothing but the framebuffer, the command stream and, where it holds, the parser. -/
theorem loadBitmapFrom_frame (cw : CmdWord) (left : Nat) (s : State) :
    ∃ v c p, loadBitmapFrom cw left s = { s with vram := v, cmd := c, parser := p } ∧
      (p = s.parser ∨ (c = [] ∧ ∃ k, k < 504 ∧ p = .exec cw (.loadBitmap k))) := by
  induction left generalizing s with
  | zero => exact ⟨s.vram, s.cmd, s.parser, rfl, .inl rfl⟩
  | succ n ih =>
    rw [loadBitmapFrom]
    split
    · next h => exact ⟨s.vram, s.cmd, _, rfl, .inr ⟨h, _, by omega, rfl⟩⟩
    · next b rest h =>
      obtain ⟨v, c, p, h1, h2⟩ := ih ((s.setCmd rest).setVram (vramWrite (504 - (n + 1)) b s.vram))
      exact ⟨v, c, p, h1, h2⟩

/-- DRAWSTRING changes nothing but the framebuffer, the cursor, the command stream and, where it holds, the
parser; the cursor stays in its ranges. -/
theorem drawStringFrom_frame (cw : CmdWord) (bs : List Byte) (s : State) (hc : s.curCol ≤ 83) (hr : s.curRow ≤ 5) :
    ∃ v x y c p, drawStringFrom cw bs s = { s with vram := v, curCol := x, curRow := y, cmd := c, parser := p } ∧
      x ≤ 83 ∧ y ≤ 5 ∧ (p = s.parser ∨ (c = [] ∧ p = .exec cw .drawString)) := by
  induction bs generalizing s with
  | nil => exact ⟨s.vram, s.curCol, s.curRow, [], _, rfl, hc, hr, .inr ⟨rfl, rfl⟩⟩
  | cons b rest ih =>
    rw [drawStringFrom]
    split
    · exact ⟨s.vram, s.curCol, s.curRow, rest, s.parser, rfl, hc, hr, .inl rfl⟩
    · have hcs := charStep_cursor (code := b) hc hr
      obtain ⟨v, x, y, c, p, h1, h2, h3, h4⟩ := ih (charStep b s) hcs.1 hcs.2
      rw [charStep_frame b s] at h1 h4
      exact ⟨v, x, y, c, p, (charStep_frame b s) ▸ h1, h2, h3, h4⟩

/-- Discarding changes nothing but the command stream and, where it holds, the parser (R87). -/
theorem discardFrom_frame (cw : CmdWord) (n : Nat) (s : State) :
    ∃ c p, discardFrom cw n s = { s with cmd := c, parser := p } ∧
      (p = s.parser ∨ (c = [] ∧ ∃ k, 0 < k ∧ k ≤ n ∧ p = .exec cw (.discard k))) := by
  induction n generalizing s with
  | zero => exact ⟨s.cmd, s.parser, rfl, .inl rfl⟩
  | succ n ih =>
    rw [discardFrom]
    split
    · next h => exact ⟨s.cmd, _, rfl, .inr ⟨h, n + 1, by omega, Nat.le_refl _, rfl⟩⟩
    · next b rest h =>
      obtain ⟨c, p, h1, h2⟩ := ih (s.setCmd rest)
      refine ⟨c, p, h1, ?_⟩
      rcases h2 with h2 | ⟨h2, k, h3, h4, h5⟩
      · exact .inl h2
      · exact .inr ⟨h2, k, h3, by omega, h5⟩

/-- Discarding through the terminator changes nothing but the command stream and, where it holds, the parser (R87). -/
theorem discardThroughNullFrom_frame (cw : CmdWord) (bs : List Byte) (s : State) :
    ∃ c p, discardThroughNullFrom cw bs s = { s with cmd := c, parser := p } ∧
      (p = s.parser ∨ (c = [] ∧ p = .exec cw .discardThroughNull)) := by
  induction bs generalizing s with
  | nil => exact ⟨[], _, rfl, .inr ⟨rfl, rfl⟩⟩
  | cons b rest ih =>
    rw [discardThroughNullFrom]
    split
    · exact ⟨rest, s.parser, rfl, .inl rfl⟩
    · exact ih s

/-! ## Transaction loops (R228 to R230) -/

/-- What no EEPROM command touches, and how it may end: it leaves the parser alone, or it is stopped at a
port, or it waits as the proposition `w` says. -/
structure EepromFrame (cw : CmdWord) (w : Progress → Prop) (s t : State) : Prop where
  vram : t.vram = s.vram
  curCol : t.curCol = s.curCol
  curRow : t.curRow = s.curRow
  status : t.status = s.status
  chipSelect : t.chipSelect = s.chipSelect
  faultMark : t.faultMark = s.faultMark
  params : t.params = s.params
  panel : t.panel = s.panel
  device : t.device = s.device
  busEnabled : t.busEnabled = s.busEnabled
  stops : (t.parser = s.parser ∧ t.bus = s.bus ∧ t.resetIn = s.resetIn) ∨ t.parser = .exec cw .port ∨
    (∃ p, w p ∧ t.parser = .exec cw p ∧ t.bus = s.bus ∧ t.resetIn = s.resetIn)
  memory : Memory.wf s.params.eeErased s.ee = true → Memory.wf s.params.eeErased t.ee = true

theorem EepromFrame.refl (cw : CmdWord) (w : Progress → Prop) (s : State) : EepromFrame cw w s s :=
  ⟨rfl, rfl, rfl, rfl, rfl, rfl, rfl, rfl, rfl, rfl, .inl ⟨rfl, rfl, rfl⟩, id⟩

/-- A completed part followed by the rest of a command. -/
theorem EepromFrame.trans {cw : CmdWord} {w : Progress → Prop} {s t u : State} (h : EepromFrame cw w s t)
    (hp : t.parser = s.parser) (hb : t.bus = s.bus) (hr : t.resetIn = s.resetIn) (h' : EepromFrame cw w t u) :
    EepromFrame cw w s u where
  vram := h'.vram.trans h.vram
  curCol := h'.curCol.trans h.curCol
  curRow := h'.curRow.trans h.curRow
  status := h'.status.trans h.status
  chipSelect := h'.chipSelect.trans h.chipSelect
  faultMark := h'.faultMark.trans h.faultMark
  params := h'.params.trans h.params
  panel := h'.panel.trans h.panel
  device := h'.device.trans h.device
  busEnabled := h'.busEnabled.trans h.busEnabled
  stops := by rw [← hp, ← hb, ← hr]; exact h'.stops
  memory := fun hm => by
    have := h.memory hm
    rw [← h.params] at this ⊢
    exact h'.memory this

theorem memory_wf_deviceStore {s : State} (h : Memory.wf s.params.eeErased s.ee = true) (a : Addr) (d : Byte) :
    Memory.wf s.params.eeErased (s.deviceStore a d).ee = true := by
  cases hd : s.device with
  | present => rw [deviceStore_present hd]; exact memory_wf_eeStore h a d
  | silent => rw [deviceStore_silent hd]; exact h

/-- One write transaction: completed with the parser, the bus and RESET as before, or stopped. -/
theorem eeWrite_frame (cw : CmdWord) (w : Progress → Prop) (a : Addr) (d : Byte) (s : State) :
    (∃ t, s.eeWrite a d = (t, true) ∧ t.parser = s.parser ∧ t.bus = s.bus ∧ t.resetIn = s.resetIn ∧ t.cmd = s.cmd ∧
      t.rsp = s.rsp ∧ EepromFrame cw w s t) ∨
    (∃ t, s.eeWrite a d = (t, false) ∧ EepromFrame cw w s (t.hold cw .port)) := by
  rcases eeWrite_cases a d s with ⟨t, h, ht⟩ | ⟨t, h, ht⟩
  · refine .inl ⟨t, h, ?_⟩
    rw [ht]
    exact ⟨rfl, rfl, rfl, rfl, rfl, rfl, rfl, rfl, rfl, rfl, rfl, rfl, rfl, rfl, rfl, .inl ⟨rfl, rfl, rfl⟩,
      fun hm => memory_wf_deviceStore hm a d⟩
  · refine .inr ⟨t, h, ?_⟩
    rw [ht]
    exact ⟨rfl, rfl, rfl, rfl, rfl, rfl, rfl, rfl, rfl, rfl, .inr (.inl rfl), id⟩

theorem eeWriteLast_frame (cw : CmdWord) (w : Progress → Prop) (a : Addr) (d : Byte) (s : State) :
    EepromFrame cw w s (eeWriteLast cw a d s) := by
  rcases eeWrite_frame cw w a d s with ⟨t, h, -, -, -, -, -, hf⟩ | ⟨t, h, hf⟩ <;> simp only [eeWriteLast, h] <;> exact hf

/-- EE_WRITESTR: where it waits for a payload byte, at most as many are still to come as at the start (R228). -/
theorem eeWriteStrFrom_frame (cw : CmdWord) (left : Nat) (a : Addr) (stopped : Bool) (s : State) :
    EepromFrame cw (fun p => ∃ a' k b, 0 < k ∧ k ≤ left ∧ p = .eeWriteStr a' k b) s (eeWriteStrFrom cw left a stopped s) := by
  have hmono : ∀ {n : Nat} {s t : State},
      EepromFrame cw (fun p => ∃ a' k b, 0 < k ∧ k ≤ n ∧ p = .eeWriteStr a' k b) s t →
      EepromFrame cw (fun p => ∃ a' k b, 0 < k ∧ k ≤ n + 1 ∧ p = .eeWriteStr a' k b) s t := by
    intro n s t h
    refine ⟨h.vram, h.curCol, h.curRow, h.status, h.chipSelect, h.faultMark, h.params, h.panel, h.device, h.busEnabled, ?_, h.memory⟩
    rcases h.stops with h | h | ⟨p, ⟨a', k, b, h1, h2, h3⟩, h4⟩
    · exact .inl h
    · exact .inr (.inl h)
    · exact .inr (.inr ⟨p, ⟨a', k, b, h1, by omega, h3⟩, h4⟩)
  induction left generalizing a stopped s with
  | zero => exact eeWriteLast_frame ..
  | succ n ih =>
    rw [eeWriteStrFrom]
    split
    · exact ⟨rfl, rfl, rfl, rfl, rfl, rfl, rfl, rfl, rfl, rfl,
        .inr (.inr ⟨_, ⟨a, n + 1, stopped, by omega, Nat.le_refl _, rfl⟩, rfl, rfl, rfl⟩), id⟩
    · next b rest hcmd =>
      have hset : EepromFrame cw (fun p => ∃ a' k b, 0 < k ∧ k ≤ n + 1 ∧ p = .eeWriteStr a' k b) s (s.setCmd rest) :=
        ⟨rfl, rfl, rfl, rfl, rfl, rfl, rfl, rfl, rfl, rfl, .inl ⟨rfl, rfl, rfl⟩, id⟩
      split
      · exact hset.trans rfl rfl rfl (hmono (ih ..))
      · split
        · exact hset.trans rfl rfl rfl (hmono (ih ..))
        · rcases eeWrite_frame cw (fun p => ∃ a' k b, 0 < k ∧ k ≤ n + 1 ∧ p = .eeWriteStr a' k b) a b
            (s.setCmd rest) with ⟨t, h, h1, h2, h3, -, -, hf⟩ | ⟨t, h, hf⟩
          · simp only [h]
            exact hset.trans rfl rfl rfl (hf.trans h1 h2 h3 (hmono (ih ..)))
          · simp only [h]
            exact hset.trans rfl rfl rfl hf

/-- EE_ZERO (R230). -/
theorem eeZeroFrom_frame (cw : CmdWord) (n : Nat) (a : Addr) (s : State) :
    EepromFrame cw (fun _ => False) s (eeZeroFrom cw n a s) := by
  induction n generalizing a s with
  | zero =>
    rw [eeZeroFrom]
    split
    · exact .refl ..
    · exact ⟨rfl, rfl, rfl, rfl, rfl, rfl, rfl, rfl, rfl, rfl, .inr (.inl rfl), id⟩
  | succ n ih =>
    rw [eeZeroFrom]
    rcases eeWrite_frame cw (fun _ => False) a 0x00#8 s with ⟨t, h, h1, h2, h3, -, -, hf⟩ | ⟨t, h, hf⟩
    · simp only [h]
      exact hf.trans h1 h2 h3 (ih ..)
    · simp only [h]
      exact hf

/-- One read transaction: completed with the parser, the bus and RESET as before, or stopped. -/
theorem eeRead_frame (cw : CmdWord) (w : Progress → Prop) (a : Addr) (s : State) :
    (∃ t d, s.eeRead a = (t, some d) ∧ t.parser = s.parser ∧ t.bus = s.bus ∧ t.resetIn = s.resetIn ∧ t.cmd = s.cmd ∧
      t.rsp = s.rsp ∧ t.ee = s.ee ∧ EepromFrame cw w s t) ∨
    (∃ t, s.eeRead a = (t, none) ∧ EepromFrame cw w s (t.hold cw .port)) := by
  rcases eeRead_cases a s with ⟨t, h, ht⟩ | ⟨t, h, ht⟩
  · refine .inl ⟨t, _, h, ?_⟩
    rw [ht]
    exact ⟨rfl, rfl, rfl, rfl, rfl, rfl, rfl, rfl, rfl, rfl, rfl, rfl, rfl, rfl, rfl, rfl, .inl ⟨rfl, rfl, rfl⟩, id⟩
  · refine .inr ⟨t, h, ?_⟩
    rw [ht]
    exact ⟨rfl, rfl, rfl, rfl, rfl, rfl, rfl, rfl, rfl, rfl, .inr (.inl rfl), id⟩

/-- EE_READSTR (R229). -/
theorem eeReadStrFrom_frame (cw : CmdWord) (n : Nat) (a : Addr) (s : State) :
    EepromFrame cw (fun p => ∃ a', p = .eeReadStr a') s (eeReadStrFrom cw n a s) := by
  induction n generalizing a s with
  | zero =>
    exact ⟨rfl, rfl, rfl, rfl, rfl, rfl, rfl, rfl, rfl, rfl, .inr (.inr ⟨_, ⟨a, rfl⟩, rfl, rfl, rfl⟩), id⟩
  | succ n ih =>
    rw [eeReadStrFrom]
    rcases eeRead_frame cw (fun p => ∃ a', p = .eeReadStr a') a s with ⟨t, d, h, h1, h2, h3, -, -, -, hf⟩ | ⟨t, h, hf⟩
    · simp only [h]
      have hrsp : ∀ bs, EepromFrame cw (fun p => ∃ a', p = .eeReadStr a') t (t.respond bs) := fun bs =>
        ⟨rfl, rfl, rfl, rfl, rfl, rfl, rfl, rfl, rfl, rfl, .inl ⟨rfl, rfl, rfl⟩, id⟩
      split
      · exact hf.trans h1 h2 h3 (hrsp _)
      · exact hf.trans h1 h2 h3 ((hrsp _).trans rfl rfl rfl (ih ..))
    · simp only [h]
      exact hf

end Sys2Proof.Machine
end

