-- ==== Sys2Proof/Laws/PerInstr.lean ====
section
/-!
SUPPORT. The statements made once per command.
-/

namespace Sys2Proof.Laws

/-- The payload that follows the command word of a command (R84) is the one its packets are checked against. -/
def Payload.Statement (i : Instr) : Prop := cwPayload (encodeWord i) = i.payloadShape

/-- The payload of a packed word follows from its opcode and its `LEN` field (R84, R91). -/
theorem cwPayload_packWord (op : Byte) (on fill : Bool) (a b c d e : Byte) :
    cwPayload (packWord op on fill a b c d e) =
      match op with
      | 0x05#8 => .bytes 504
      | 0x22#8 => .throughNull
      | 0x32#8 => .bytes (d ++ c : Addr).toNat
      | _ => .bytes 0 := by
  simp only [cwPayload, cwOp_packWord, cwAddr2_packWord]
  try rfl

theorem Payload.nop : Payload.Statement .nop :=
  cwPayload_packWord ..

theorem Payload.clear : Payload.Statement .clear :=
  cwPayload_packWord ..

theorem Payload.setPixel (x : Byte) (y : Byte) (on : Bool) : Payload.Statement (.setPixel x y on) :=
  cwPayload_packWord ..

theorem Payload.invert : Payload.Statement .invert :=
  cwPayload_packWord ..

theorem Payload.serialize : Payload.Statement .serialize :=
  cwPayload_packWord ..

theorem Payload.loadBitmap : Payload.Statement .loadBitmap :=
  cwPayload_packWord ..

theorem Payload.flush : Payload.Statement .flush :=
  cwPayload_packWord ..

theorem Payload.plot (x : Byte) (y : Byte) (on : Bool) : Payload.Statement (.plot x y on) :=
  cwPayload_packWord ..

theorem Payload.line (x1 : Byte) (y1 : Byte) (x2 : Byte) (y2 : Byte) (on : Bool) : Payload.Statement (.line x1 y1 x2 y2 on) :=
  cwPayload_packWord ..

theorem Payload.rect (x1 : Byte) (y1 : Byte) (x2 : Byte) (y2 : Byte) (fill : Bool) (on : Bool) : Payload.Statement (.rect x1 y1 x2 y2 fill on) :=
  cwPayload_packWord ..

theorem Payload.bar (x1 : Byte) (y1 : Byte) (x2 : Byte) (y2 : Byte) (width : Byte) (on : Bool) : Payload.Statement (.bar x1 y1 x2 y2 width on) :=
  cwPayload_packWord ..

theorem Payload.circle (cx : Byte) (cy : Byte) (r : Byte) (fill : Bool) (on : Bool) : Payload.Statement (.circle cx cy r fill on) :=
  cwPayload_packWord ..

theorem Payload.gotoXY (col : Byte) (row : Byte) : Payload.Statement (.gotoXY col row) :=
  cwPayload_packWord ..

theorem Payload.drawChar (code : Byte) : Payload.Statement (.drawChar code) :=
  cwPayload_packWord ..

theorem Payload.drawString : Payload.Statement .drawString :=
  cwPayload_packWord ..

theorem Payload.drawLarge (code : Byte) : Payload.Statement (.drawLarge code) :=
  cwPayload_packWord ..

theorem Payload.eeRead (addr : Addr) : Payload.Statement (.eeRead addr) :=
  cwPayload_packWord ..

theorem Payload.eeWrite (addr : Addr) (value : Byte) : Payload.Statement (.eeWrite addr value) :=
  cwPayload_packWord ..

theorem Payload.eeWriteStr (addr : Addr) (len : Addr) : Payload.Statement (.eeWriteStr addr len) := by
  simp only [Payload.Statement, encodeWord, cwPayload_packWord, highByte_append_lowByte, Instr.payloadShape]
  try rfl

theorem Payload.eeReadStr (addr : Addr) : Payload.Statement (.eeReadStr addr) :=
  cwPayload_packWord ..

theorem Payload.eeZero (first : Addr) (limit : Addr) : Payload.Statement (.eeZero first limit) :=
  cwPayload_packWord ..

theorem Payload.getStatus : Payload.Statement .getStatus :=
  cwPayload_packWord ..

theorem Payload.clrErr : Payload.Statement .clrErr :=
  cwPayload_packWord ..

end Sys2Proof.Laws
end

