-- ==== Sys2Proof/Tests/Slice0.lean ====
section
/-!
SUPPORT. The tests of the model: ill-formed packets refused, decoding of words written out from
spec/95_test_vectors.md section 2, single steps with the results that file gives, and for every statement
with hypotheses a witness that meets them.
-/

namespace Sys2Proof.Tests

open Sys2Proof.Machine Sys2Proof.Claims

/-! ## Helpers -/

/-- Bytes put into a table of zeros, in order, from a position on. -/
def put {n : Nat} : Nat → List Byte → Vector Byte n → Vector Byte n
  | _, [], v => v
  | k, b :: bs, v => put (k + 1) bs (v.setIfInBounds k b)

/-- Parameters with glyphs for 'A' (0x41), 'B' (0x42) and the large '8', every other glyph 0. -/
def params : Params where
  glyph5 := put 165 [0x7E, 0x11, 0x12, 0x13, 0x7F, 0x70, 0x71] (Vector.replicate 480 0)
  large := put 220 [1, 2, 3, 4, 5, 6, 7, 8, 9, 10, 11, 12, 13, 14, 15, 16] (Vector.replicate 260 0)
  bankBit := 2
  tSettle := 7
  eeErased := 0xFF
  badGlyph := .blank

/-- "From clear" of spec/95_test_vectors.md: every byte 0, cursor (0, 0), STATUS 0, the EEPROM erased. -/
def clear : State := { State.reset with params := params, vram := vramZero }

/-- "From ones". -/
def ones : State := clear.setVram (Vector.replicate 504 0xFF#8)

/-- The state after a command. -/
def after (i : Instr) (s : State) : State :=
  match exec i s with
  | .next t => t
  | .fault _ => s
  | .refused _ => s

/-- The state after one step. -/
def stepped (s : State) : State :=
  match step s with
  | .next t => t
  | .fault _ => s
  | .refused _ => s

/-- The VRAM bytes at these indices. -/
def at_ (s : State) (is : List Nat) : List Byte := is.map (vramRead s.vram)

/-! ## Ill-formed packets (R84, R315) -/

theorem test_wf_short_image : Packet.wellFormed ⟨.loadBitmap, List.replicate 503 0#8⟩ = false := by
  show ((List.replicate 503 0#8).length == 504) = false
  rw [List.length_replicate]
  rfl

theorem test_wf_full_image : Packet.wellFormed ⟨.loadBitmap, List.replicate 504 0#8⟩ = true := by
  show ((List.replicate 504 0#8).length == 504) = true
  rw [List.length_replicate]
  rfl

theorem test_wf_string_without_terminator : Packet.wellFormed ⟨.drawString, [0x41]⟩ = false := by decide
theorem test_wf_string_after_terminator : Packet.wellFormed ⟨.drawString, [0x41, 0, 0x42, 0]⟩ = false := by decide
theorem test_wf_string : Packet.wellFormed ⟨.drawString, [0x41, 0x42, 0]⟩ = true := by decide
theorem test_wf_short_text : Packet.wellFormed ⟨.eeWriteStr 0x0100 3, [0x48, 0x69]⟩ = false := by decide
theorem test_wf_text : Packet.wellFormed ⟨.eeWriteStr 0x0100 3, [0x48, 0x69, 0]⟩ = true := by decide
theorem test_wf_no_payload : Packet.wellFormed ⟨.nop, [0]⟩ = false := by decide

/-! ## Decoding: the words of spec/95_test_vectors.md section 2 -/

theorem test_decode_framebuffer :
    [0x01, 0x0A030102, 0x03, 0x04, 0x05, 0x06].map decodeWord =
      [.instr .clear, .instr (.setPixel 3 10 true), .instr .invert, .instr .serialize, .instr .loadBitmap,
        .instr .flush] := by decide

theorem test_decode_rasterizer :
    [0x025A0110, 0x0000020400000111, 0x0000030301010312, 0x0003040204000113, 0x000000020A0A0214].map decodeWord =
      [.instr (.plot 90 2 true), .instr (.line 0 0 4 2 true), .instr (.rect 1 1 3 3 true true),
        .instr (.bar 0 4 2 4 3 true), .instr (.circle 10 10 2 true false)] := by decide

theorem test_decode_text :
    [0x030C0020, 0x00410021, 0x22, 0x00370023].map decodeWord =
      [.instr (.gotoXY 12 3), .instr (.drawChar 0x41), .instr .drawString, .instr (.drawLarge 0x37)] := by decide

theorem test_decode_eeprom :
    [0x13370030, 0x0000002A90000031, 0x0000000301000032, 0x01000033, 0x0000001300100034].map decodeWord =
      [.instr (.eeRead 0x1337), .instr (.eeWrite 0x9000 0x2A), .instr (.eeWriteStr 0x0100 3),
        .instr (.eeReadStr 0x0100), .instr (.eeZero 0x0010 0x0013)] := by decide

theorem test_decode_control :
    [0x00, 0x3E, 0x3F].map decodeWord = [.instr .nop, .instr .getStatus, .instr .clrErr] := by decide

/-- R94, byte by byte. -/
theorem test_decode_bytes :
    decode [0x11, 0x01, 0x00, 0x00, 0x53, 0x2F, 0x00, 0x00, 0xAA] = some (.instr (.line 0 0 83 47 true), [0xAA]) := by
  decide

/-- V-DEC-1, V-DEC-2, V-DEC-3: unassigned opcodes, whatever the other bits. -/
theorem test_decode_illegal :
    [0x0123456789ABCD07, 0xFFFFFFFFFFFFFFFF, 0x300024].map decodeWord =
      [.illegalOpcode, .illegalOpcode, .illegalOpcode] := by decide

/-- V-DEC-4, V-DEC-5, V-DEC-9, V-DEC-10, V-DEC-12: a reserved bit set. -/
theorem test_decode_reserved :
    [0x8000000001010102, 0x0000000300000311, 0x0100000000000000, 0x0100003E, 0x0001003F].map decodeWord =
      List.replicate 5 .reservedBits := by decide

theorem test_table_word : decodeTableWord 64 0x0003040204000113 = some (.bar 0 4 2 4 3 true) := by decide

/-! ## Steps: the command stream -/

/-- V-DEC-1 with V-CTL-3: an illegal packet takes 8 bytes and sets STATUS 11. -/
theorem test_step_illegal :
    let t := stepped (clear.hostSend [0x07, 0xCD, 0xAB, 0x89, 0x67, 0x45, 0x23, 0x01, 0x3E])
    (t.status, t.cmd) = (0x11, [0x3E]) := by decide

/-- V-DEC-7: the payload of a rejected DRAWSTRING is consumed through its 00; nothing is drawn. -/
theorem test_step_reserved_string :
    let t := stepped (clear.hostSend ([0x22, 1, 0, 0, 0, 0, 0, 0] ++ [0x41, 0x42, 0, 0x3E]))
    (t.status, t.cmd, t.curCol, t.curRow) = (0x21, [0x3E], 0, 0) := by decide

/-- V-DEC-8: the two payload bytes of a rejected EE_WRITESTR are consumed; no bus traffic. -/
theorem test_step_reserved_text :
    let t := stepped (clear.hostSend ([0x32, 0, 0, 1, 2, 0, 0x55, 0] ++ [0x78, 0x79, 0x3E]))
    (t.status, t.cmd, t.ports) = (0x21, [0x3E], []) := by decide

/-- V-DEC-11: the first error is kept. -/
theorem test_step_first_error :
    (stepped ((clear.setStatus 0x11).hostSend [1, 2, 0, 0, 0, 0, 0, 0])).status = 0x11 := by decide

/-- R60: a header that is not complete. -/
theorem test_step_header :
    (stepped (clear.hostSend [0x3E, 0, 0])).parser = .header [0x3E, 0, 0] := by decide

/-- R310, R311: RESET in the middle of a header. -/
theorem test_step_reset :
    let t := stepped (((clear.setParser (.header [1])).setCursor 5 2).assertReset)
    (t.parser, t.curCol, t.curRow, t.resetIn) = (.idle, 0, 0, false) := by decide

/-- The host's placing of an instruction: the next step runs it. -/
theorem test_withFetchWord :
    (stepped (State.reset.withFetchWord 64 0x030C0020)).curCol = 12 := by decide

/-! ## Steps: framebuffer (section 3); the commands of a family in one theorem, evaluated by the kernel -/

/-- V-FB-8. -/
theorem test_clear :
    let t := after .clear (ones.setCursor 12 3)
    (at_ t [0, 503], t.curCol, t.curRow) = ([0, 0], 12, 3) := by simp [after, exec, execClear, at_]

/-- V-FB-5. -/
theorem test_invert :
    vramRead (after .invert (clear.setVram (Vector.replicate 504 0x5A#8))).vram 503 = 0xA5 := by
  refine (vramRead_vramInvert _ (by decide)).trans ?_
  simp [vramRead]

/-- SETPIXEL: V-FB-1, V-FB-3. SERIALIZE: V-FB-4. LOADBITMAP: the last bytes of V-FB-6 and the byte after it left in the
stream. FLUSH: V-FB-7. -/
theorem test_framebuffer :
    at_ (after (.setPixel 3 10 true) clear) [86, 87, 88] = [0, 4, 0] ∧
    at_ (after (.setPixel 5 13 false) ones) [88, 89, 90] = [0xFF, 0xDF, 0xFF] ∧
    (after .serialize (after (.setPixel 83 47 true) clear)).rsp = List.replicate 503 0 ++ [0x80] ∧
    (let t := stepped ((ones.setParser (.exec 0x05 (.loadBitmap 501))).hostSend [0xB3, 0xBA, 0xC1, 0x3E]);
      (at_ t [500, 501, 502, 503], t.cmd, t.parser) = ([0xFF, 0xB3, 0xBA, 0xC1], [0x3E], .idle)) ∧
    let t := after .flush ones;
    (t.ports.length, t.ports.head?, t.ports[504]?, t.ports.getLast?, t.panel.map (vramRead · 503)) =
      (506, some (.panelSelect true), some (.panelTx 0xFF), some (.panelSelect false), some 0xFF) := by
  decide +kernel

/-! ## Steps: rasterizer (section 4) -/

/-- PLOT: S1 and the example of R141. LINE: V-LINE-1, V-LINE-2, V-LINE-8. RECT: V-RECT-1, V-RECT-2. BAR: V-BAR-3, V-BAR-6.
CIRCLE: V-CIRC-2, V-CIRC-2F. -/
theorem test_rasterizer :
    at_ (after (.plot 0 0 true) clear) [0] = [1] ∧ at_ (after (.plot 84 0 true) clear) [0, 83, 84] = [0, 0, 0] ∧
    at_ (after (.line 0 0 4 2 true) clear) [0, 1, 2, 3, 4] = [1, 2, 2, 4, 4] ∧
    at_ (after (.line 4 2 0 0 true) clear) [0, 1, 2, 3, 4] = [1, 1, 2, 2, 4] ∧
    at_ (after (.line 0 0 2 5 true) clear) [0, 1, 2] = [3, 0x0C, 0x30] ∧
    at_ (after (.rect 1 1 3 3 false true) clear) [0, 1, 2, 3, 4] = [0, 0x0E, 0x0A, 0x0E, 0] ∧
    at_ (after (.rect 3 3 1 1 true true) clear) [0, 1, 2, 3, 4] = [0, 0x0E, 0x0E, 0x0E, 0] ∧
    at_ (after (.bar 0 4 2 4 2 true) clear) [0, 1, 2, 3] = [0x18, 0x18, 0x18, 0] ∧
    at_ (after (.bar 5 0 5 2 2 true) clear) [3, 4, 5, 6] = [0, 7, 7, 0] ∧
    at_ (after (.circle 10 10 1 false true) clear) [92, 93, 94, 95, 96] = [0, 4, 0x0A, 4, 0] ∧
    at_ (after (.circle 10 10 1 true true) clear) [92, 93, 94, 95, 96] = [0, 4, 0x0E, 4, 0] := by decide +kernel

/-- V-CSTEP. -/
theorem test_circleSteps : circleSteps 4 = [(0, 4), (1, 4), (2, 3), (3, 3)] := by decide

/-! ## Steps: text (section 5) -/

/-- V-TXT-17. -/
theorem test_gotoXY : ((after (.gotoXY 200 9) clear).curCol, (after (.gotoXY 200 9) clear).curRow) = (83, 5) := by
  decide

/-- V-LG-8. -/
theorem test_drawLarge_fault :
    let t := after (.drawLarge 0x41) { ones.setCursor 74 5 with params := { params with badGlyph := .fault } }
    (t.curCol, t.curRow, t.status, t.faultMark) = (74, 5, 0x31, true) := by decide

/-- DRAWCHAR: V-TXT-3 (the right edge, then the wrap), V-TXT-9 (backspace at (0, 0)). DRAWSTRING: V-TXT-13. DRAWLARGE: V-LG-3
(columns past 83 are dropped, the cursor wraps), V-LG-7. -/
theorem test_text :
    (let t := after (.drawChar 0x41) (ones.setCursor 80 2);
      (at_ t [247, 248, 249, 250, 251, 252], t.curCol, t.curRow) = ([0xFF, 0x7E, 0x11, 0x12, 0x13, 0xFF], 0, 3)) ∧
    (let t := after (.drawChar 0x08) ones;
      (at_ t [497, 498, 503, 0], t.curCol, t.curRow) = ([0xFF, 0, 0, 0xFF], 78, 5)) ∧
    (let t := after .drawString ((clear.setCursor 30 2).hostSend [0x41, 0x0A, 0x42, 0x00, 0x3E]);
      (at_ t [198, 252], t.curCol, t.curRow, t.cmd) = ([0x7E, 0x70], 6, 3, [0x3E])) ∧
    (let t := after (.drawLarge 0x38) (ones.setCursor 78 0);
      (at_ t [77, 78, 83, 84, 162, 167], t.curCol, t.curRow) = ([0xFF, 1, 6, 0xFF, 11, 16], 0, 1)) ∧
    let t := after (.drawLarge 0x41) (ones.setCursor 74 5);
    (at_ t [493, 494, 503], t.curCol, t.curRow, t.status) = ([0xFF, 0, 0], 0, 0, 0x31) := by decide +kernel

/-! ## Steps: EEPROM (section 6) -/

/-- V-EE-3: bank 1. -/
theorem test_eeRead :
    let t := after (.eeRead 0x8000) (clear.setEe [(0x8000, 0x42)])
    (t.rsp, t.ports.take 6) =
      ([0x42], [.busStart, .busTx 0xAA, .busTx 0x80, .busTx 0x00, .busRestart, .busTx 0xAB]) := by decide

/-- V-EE-4. -/
theorem test_eeWrite :
    let t := after (.eeWrite 0x9000 0x2A) clear
    (t.ee, t.ports) = ([(0x9000, 0x2A)],
      [.busStart, .busTx 0xAA, .busTx 0x90, .busTx 0x00, .busTx 0x2A, .busStop, .settle 7]) := by decide

/-- V-EE-8: the text stops at its own 0x00, every payload byte is consumed. -/
theorem test_eeWriteStr :
    let t := after (.eeWriteStr 0x0100 4) (clear.hostSend [0x48, 0x00, 0x69, 0x6A])
    (t.ee, t.cmd, t.ports.length) = ([(0x0100, 0x48), (0x0101, 0x00)], [], 14) := by decide

/-- V-EE-13: the address wraps. -/
theorem test_eeReadStr :
    (after (.eeReadStr 0xFFFF) (clear.setEe [(0, 0x32), (1, 0x00), (0xFFFF, 0x31)])).rsp = [0x31, 0x32, 0x00] := by
  decide

/-- V-EE-11, V-EE-12. -/
theorem test_eeZero :
    let s := clear.setEe [(0x10, 1), (0x11, 2), (0x12, 3), (0x13, 4)]
    ((after (.eeZero 0x0010 0x0013) s).ee, (after (.eeZero 0x0020 0x0010) s).ports) =
      ([(0x10, 0), (0x11, 0), (0x12, 0), (0x13, 4)], []) := by decide

/-- R231, R319, U13: on a bus that is not enabled an EE_ZERO hangs, with an empty range too; RESET ends it. -/
theorem test_eeZero_disabled :
    let t := after (.eeZero 0x0020 0x0010) (clear.enableBus false)
    let u := after (.eeZero 0x0010 0x0020) (clear.enableBus false)
    (t.parser, t.ports, (stepped t).parser, u.ports, (stepped u).parser, (stepped t.assertReset).parser) =
      (.exec 0x0000001000200034 .port, [], .exec 0x0000001000200034 .port, [.busStart],
        .exec 0x0000002000100034 .port, .idle) := by decide

/-- V-EE-16. -/
theorem test_eeWrite_stuck :
    let t := after (.eeWrite 0x0000 0x01) (clear.setPortPlan (.stuckAfter 0))
    (t.ports, t.rsp, t.ee, (stepped t).parser, (stepped t).ports) =
      ([.busStart], [], [], .exec 0x0000000100000031 .port, [.busStart]) := by decide

/-! ## Steps: control (section 7) -/

/-- V-CTL-2. -/
theorem test_nop : let t := after .nop (clear.setStatus 0x21); (t.status, t.rsp, t.ports) = (0x21, [], []) := by
  decide

/-- V-TXT-16. -/
theorem test_getStatus : (after .getStatus (clear.setCursor 12 3)).rsp = [0x00, 0x0C, 0x03] := by decide

/-- V-CTL-3. -/
theorem test_clrErr : (after .clrErr (clear.setStatus 0x11)).status = 0x00 := by decide

/-! ## Witnesses: concrete states and operands that meet the hypotheses of each statement -/

theorem witness_EncodeInvertsDecode : decodeWord 0x00002F5300000111 = .instr (.line 0 0 83 47 true) := by decide

theorem witness_DecodeFollowsOpcodeTable :
    (⟨"NOP", 0xFFFFFFFFFFFFFFFF, 0x00⟩ : TableRow) ∈ opcodeTable ∧
      (⟨"CLRERR", 0xFFFFFFFFFFFFFFFF, 0x3F⟩ : TableRow) ∈ opcodeTable := by decide

/-- The three cases of R89, at the ends of the opcode ranges. -/
theorem witness_DecodeChecksOpcodeFirst :
    ¬assigned (cwOp 0x07) ∧ ¬assigned (cwOp 0xFF) ∧ ¬assigned (cwOp 0x3D) ∧
    (assigned (cwOp 0x0100000000000006) ∧ unusedBitSet 0x0100000000000006) ∧
    (assigned (cwOp 0x0400000000000112) ∧ unusedBitSet 0x0400000000000112) ∧
    (assigned (cwOp 0x3F) ∧ ¬unusedBitSet 0x3F) ∧
    assigned (cwOp 0x00FFFFFFFFFF0113) ∧ ¬unusedBitSet 0x00FFFFFFFFFF0113 :=
  ⟨by decide, by decide, by decide, by decide, by decide, by decide, by decide⟩

theorem witness_HeaderVectorsDecode :
    (0x000000000000003E, [0x3E, 0, 0, 0, 0, 0, 0, 0], Instr.getStatus) ∈ headerVectors := by decide

/-- With no header byte taken before, and with 7. -/
theorem witness_StepRunsDecodedCommand :
    (headerArrives (clear.hostSend [0x3E, 0, 0, 0, 0, 0, 0, 0, 9]) [] [0x3E, 0, 0, 0, 0, 0, 0, 0] [9] ∧
      decodeWord (wordOfBytes ([] ++ [0x3E, 0, 0, 0, 0, 0, 0, 0])) = .instr .getStatus) ∧
    headerArrives ((clear.setParser (.header [1, 0, 0, 0, 0, 0, 0])).hostSend [0]) [1, 0, 0, 0, 0, 0, 0] [0] [] ∧
      decodeWord (wordOfBytes ([1, 0, 0, 0, 0, 0, 0] ++ [0])) = .instr .clear := by decide

theorem witness_StepWaitsForHeader :
    (clear.resetIn = false ∧ clear.parser = headerSoFar [] ∧ ([] : List Byte).length + clear.cmd.length < 8 ∧
      clear.cmd = []) ∧
    let s := (clear.setParser (.header [1])).hostSend [0, 0, 0, 0, 0, 0]
    s.resetIn = false ∧ s.parser = headerSoFar [1] ∧ [1#8].length + s.cmd.length < 8 := by decide

theorem witness_IllegalPacketTakesHeaderOnly :
    headerArrives (clear.hostSend [0xFF, 1, 2, 3, 4, 5, 6, 7, 9]) [] [0xFF, 1, 2, 3, 4, 5, 6, 7] [9] ∧
      ¬assigned (cwOp (wordOfBytes ([] ++ [0xFF, 1, 2, 3, 4, 5, 6, 7]))) := by decide

/-- No payload, one of `LEN` bytes, one through its 0x00. -/
theorem witness_ReservedBitsDiscardPayload :
    (headerArrives (clear.hostSend [1, 2, 0, 0, 0, 0, 0, 0, 9]) [] [1, 2, 0, 0, 0, 0, 0, 0] ([] ++ [9]) ∧
      unusedBitSet (wordOfBytes ([] ++ [1, 2, 0, 0, 0, 0, 0, 0])) ∧
      isPayloadOf (wordOfBytes ([] ++ [1, 2, 0, 0, 0, 0, 0, 0])) []) ∧
    (headerArrives (clear.hostSend [0x32, 0, 0, 1, 2, 0, 0x55, 0, 7, 8]) [] [0x32, 0, 0, 1, 2, 0, 0x55, 0] ([7, 8] ++ []) ∧
      unusedBitSet (wordOfBytes ([] ++ [0x32, 0, 0, 1, 2, 0, 0x55, 0])) ∧
      isPayloadOf (wordOfBytes ([] ++ [0x32, 0, 0, 1, 2, 0, 0x55, 0])) [7, 8]) ∧
    headerArrives (clear.hostSend [0x22, 1, 0, 0, 0, 0, 0, 0, 7, 0, 9]) [] [0x22, 1, 0, 0, 0, 0, 0, 0] ([7, 0] ++ [9]) ∧
      unusedBitSet (wordOfBytes ([] ++ [0x22, 1, 0, 0, 0, 0, 0, 0])) ∧
      isPayloadOf (wordOfBytes ([] ++ [0x22, 1, 0, 0, 0, 0, 0, 0])) [7, 0] := by decide

/-- A payload of 504 bytes. -/
theorem witness_ReservedBitsDiscardPayload_image :
    headerArrives (clear.hostSend ([5, 1, 0, 0, 0, 0, 0, 0] ++ (List.replicate 504 7 ++ [9]))) []
        [5, 1, 0, 0, 0, 0, 0, 0] (List.replicate 504 7 ++ [9]) ∧
      unusedBitSet (wordOfBytes ([] ++ [5, 1, 0, 0, 0, 0, 0, 0])) ∧
      isPayloadOf (wordOfBytes ([] ++ [5, 1, 0, 0, 0, 0, 0, 0])) (List.replicate 504 7) :=
  ⟨⟨rfl, rfl, by decide, by decide, rfl⟩, by decide,
    (if_pos (by decide : (wordOfBytes ([] ++ [5, 1, 0, 0, 0, 0, 0, 0])).extractLsb' 0 8 = 0x05#8)).mpr
      List.length_replicate⟩

/-- An EE_WRITESTR without and with a 0x00 among the bytes there, one byte missing. -/
theorem witness_ShortPayloadHolds_text :
    (clear.resetIn = false ∧ busWorks clear ∧ clear.cmd.length < (1#16).toNat) ∧
    let s := clear.hostSend [0x48, 0, 0x69]
    s.resetIn = false ∧ busWorks s ∧ s.cmd.length < (4#16).toNat := by decide

theorem witness_ShortPayloadHolds :
    (clear.resetIn = false ∧ clear.cmd.length < 504 ∧ 0#8 ∉ clear.cmd) ∧
    let s := clear.hostSend (List.replicate 503 0x41)
    s.resetIn = false ∧ s.cmd.length < 504 ∧ 0#8 ∉ s.cmd :=
  ⟨⟨rfl, by decide, by decide⟩, rfl, by
    show (List.replicate 503 0x41#8).length < 504
    rw [List.length_replicate]
    decide, fun h => absurd (List.eq_of_mem_replicate h) (by decide)⟩

/-- In a header, and in a payload. -/
theorem witness_ByteArrivalDoesNotMatter :
    (∃ t, (clear.hostSend [5]).resetIn = false ∧ parserOk (clear.hostSend [5]).parser = true ∧
      step (clear.hostSend [5]) = .next t ∧ waitsForBytes t.parser = true) ∧
    ∃ t, (clear.hostSend [0x22, 0, 0, 0, 0, 0, 0, 0, 0x0A]).resetIn = false ∧
      parserOk (clear.hostSend [0x22, 0, 0, 0, 0, 0, 0, 0, 0x0A]).parser = true ∧
      step (clear.hostSend [0x22, 0, 0, 0, 0, 0, 0, 0, 0x0A]) = .next t ∧ waitsForBytes t.parser = true :=
  ⟨⟨_, rfl, rfl, rfl, rfl⟩, ⟨_, rfl, rfl, rfl, rfl⟩⟩

theorem witness_ZeroBytesAreNops :
    let s := clear.hostSend (List.replicate (8 * 2) 0 ++ [9])
    s.resetIn = false ∧ s.parser = .idle ∧ s.cmd = List.replicate (8 * 2) 0#8 ++ [9] := by decide

theorem inv_clear : clear.Inv := by
  constructor <;> decide

/-- Also the witness of InvariantStatesStep. -/
theorem witness_StepKeepsInvariant : clear.Inv ∧ ∃ t, step clear = .next t := ⟨inv_clear, _, rfl⟩

theorem witness_CursorStaysInRange :
    (clear.setCursor 83 5).curCol ≤ 83 ∧ (clear.setCursor 83 5).curRow ≤ 5 ∧
      (∃ t, exec (.drawChar 0x0A) (clear.setCursor 83 5) = .next t) ∧ ∃ t, step (clear.setCursor 83 5) = .next t :=
  ⟨by decide, by decide, ⟨_, rfl⟩, ⟨_, rfl⟩⟩

/-- NOP is outside every list, so every clause applies to it. -/
theorem witness_OnlyNamedCommandsWrite :
    exec .nop clear = .next clear ∧ mayWriteVram .nop = false ∧ mayMoveCursor .nop = false ∧
      mayWriteStatus .nop = false ∧ takesPayload .nop = false ∧ responds .nop = false ∧ mayWriteEeprom .nop = false ∧
      usesBus .nop = false ∧ usesPanel .nop = false ∧ mnemonic .nop ≠ "DRAWLARGE" :=
  ⟨rfl, by decide⟩

theorem witness_TablesAndFaultMarkLast :
    (∃ t, step (clear.setFaultMark true) = .next t) ∧ (clear.setFaultMark true).faultMark = true :=
  ⟨⟨_, rfl⟩, rfl⟩

theorem witness_FirstErrorIsKept :
    statusErr (clear.setStatus 0x11).status = true ∧ (clear.setStatus 0x11).resetIn = false ∧
      ∃ t, step (clear.setStatus 0x11) = .next t :=
  ⟨by decide, rfl, ⟨_, rfl⟩⟩

theorem witness_RaiseRecordsFirstError :
    statusErr (clear.setStatus 0x31).status = true ∧ statusErr clear.status = false ∧
      (CmdError.illegalOpcode, 1#4) ∈ [(CmdError.illegalOpcode, 1#4), (.reservedBits, 2#4), (.badGlyph, 3#4)] ∧
      (CmdError.badGlyph, 3#4) ∈ [(CmdError.illegalOpcode, 1#4), (.reservedBits, 2#4), (.badGlyph, 3#4)] := by decide

theorem witness_GetStatusReports : (clear.setCursor 83 5).curCol ≤ 83 ∧ (clear.setCursor 83 5).curRow ≤ 5 := by decide

theorem witness_ResetServed :
    (clear.assertReset.setBus (.writing 5 1 3)).resetIn = true ∧
      ∀ d n, (clear.assertReset.setBus (.writing 5 1 3)).bus ≠ .writing 6 d n :=
  ⟨rfl, fun d n h => by simp at h⟩

theorem witness_PixelWriteChangesOneBit :
    ((0 : Int) ≤ 0 ∧ (0 : Int) < 84 ∧ (0 : Int) ≤ 0 ∧ (0 : Int) < 48) ∧
    ((0 : Int) ≤ 83 ∧ (83 : Int) < 84 ∧ (0 : Int) ≤ 47 ∧ (47 : Int) < 48) ∧
    ¬((0 : Int) ≤ 84 ∧ (84 : Int) < 84 ∧ (0 : Int) ≤ 0 ∧ (0 : Int) < 48) ∧
    ¬((0 : Int) ≤ 0 ∧ (0 : Int) < 84 ∧ (0 : Int) ≤ -1 ∧ (-1 : Int) < 48) := by decide

theorem witness_EveryBitIsOnePixel : 503 < 504 ∧ 7 < 8 ∧ 0 < 504 ∧ 0 < 8 := by decide

theorem witness_SetPixelAndPlotWriteOnePixel :
    84 ≤ (84#8).toNat ∧ 48 ≤ (48#8).toNat ∧ ¬(84 ≤ (83#8).toNat ∨ 48 ≤ (47#8).toNat) := by decide

theorem witness_LoadBitmapThenSerialize :
    (List.replicate 504 0x33#8).length = 504 ∧
      (clear.hostSend (List.replicate 504 0x33 ++ [9])).cmd = List.replicate 504 0x33 ++ [9] :=
  ⟨List.length_replicate, rfl⟩

theorem witness_FlushSendsOneFrame :
    (∀ n, clear.portPlan ≠ .resetAfter n) ∧ ∀ n, (clear.setPortPlan (.stuckAfter 0)).portPlan ≠ .resetAfter n :=
  ⟨fun _ => nofun, fun _ => nofun⟩

/-- x-major, a tie, y-major. -/
theorem witness_LinePointsClosedForm :
    axisDist 0 2 ≤ axisDist 0 4 ∧ axisDist 0 3 ≤ axisDist 3 0 ∧ axisDist 0 2 < axisDist 0 3 := by decide

theorem witness_LineJoinsItsEnds :
    (linePts 0 0 4 2)[3]? = some (3, 2) ∧ (linePts 0 0 4 2)[4]? = some (4, 2) := by decide

/-- With a tie of the two bounds (`r = 4`), with equal ends, and the single point. -/
theorem witness_CircleStepsFollowTheCircle :
    (circleSteps (4 : Nat))[2]? = some (2, 3) ∧ (circleSteps (4 : Nat)).getLast? = some (3, 3) ∧
      (circleSteps (2 : Nat)).getLast? = some (1, 2) ∧ (2 : Int) + 1 ≤ 3 ∧
      (circleSteps (0 : Nat))[0]? = some (0, 0) := by decide

theorem witness_CircleOutlineInsideFill : ((11, 10) : Int × Int) ∈ circlePts 10 10 1 false := by decide

theorem witness_DrawCharNewlineOrDropped :
    ((0x1F#8 ≠ 0x0A#8 ∧ 0x1F#8 ≠ 0x08#8) ∧ ((0x1F#8).toNat < 0x20 ∨ 0x80 ≤ (0x1F#8).toNat)) ∧
      (0x80#8 ≠ 0x0A#8 ∧ 0x80#8 ≠ 0x08#8) ∧ ((0x80#8).toNat < 0x20 ∨ 0x80 ≤ (0x80#8).toNat) := by decide

theorem witness_DrawCharBackspace : (clear.setCursor 5 0).curRow ≤ 5 ∧ (clear.setCursor 6 5).curRow ≤ 5 := by decide

theorem witness_DrawCharPrintable :
    (0x20 ≤ (0x20#8).toNat ∧ (0x20#8).toNat ≤ 0x7F) ∧ 0x20 ≤ (0x7F#8).toNat ∧ (0x7F#8).toNat ≤ 0x7F := by decide

/-- A text, and the empty one. -/
theorem witness_DrawStringIsDrawCharEach :
    (0#8 ∉ [0x41#8, 0x0A#8] ∧ (clear.hostSend [0x41, 0x0A, 0, 9]).cmd = [0x41, 0x0A] ++ 0#8 :: [9]) ∧
      0#8 ∉ ([] : List Byte) ∧ (clear.hostSend [0]).cmd = [] ++ 0#8 :: [] := by decide

theorem witness_DrawLargeWritesTwoPages :
    ((0x2E, 1) ∈ largeAlphabet ∧ 5 = if (0x2E#8) = 0x2E#8 then 5 else 10) ∧
      (0x39, 12) ∈ largeAlphabet ∧ 10 = if (0x39#8) = 0x2E#8 then 5 else 10 := by decide

theorem witness_DrawLargeBadGlyph :
    (statusLegal clear.status = true ∧ badGlyphCode 0x2F ∧ clear.params.badGlyph = .blank) ∧
    let s := { clear.setStatus 0x11 with params := { params with badGlyph := .fault } }
    statusLegal s.status = true ∧ badGlyphCode 0x3A ∧ s.params.badGlyph = .fault := by decide

theorem busWorks_clear : busWorks clear := by decide

/-- Also the witness of EeWriteStoresByte and EeZeroZeroesRange, which ask no more. -/
theorem witness_EeReadRespondsByte : busWorks (clear.setEe [(0x8000, 0x42), (0xFFFF, 1)]) := by decide

theorem witness_EeZeroZeroesRange :
    busWorks clear ∧ (0xFFFF#16).toNat ≤ (0xFFFF#16).toNat ∧ ¬(0xFFFF#16).toNat ≤ (0xFFFE#16).toNat := by decide

/-- No payload, and a payload with a 0x00 inside. -/
theorem witness_EeWriteStrStoresText :
    (busWorks clear ∧ ([] : List Byte).length = (0#16).toNat ∧ clear.cmd = [] ++ []) ∧
    let s := clear.hostSend [0x48, 0, 0x69, 9]
    busWorks s ∧ [0x48#8, 0#8, 0x69#8].length = (3#16).toNat ∧ s.cmd = [0x48, 0, 0x69] ++ [9] := by decide

/-- An EEPROM whose erased cells read as 0x41. -/
def letters : State := { clear with params := { params with eeErased := 0x41 } }

/-- A run of no byte: the first byte read is 0xFF. -/
theorem witness_EeReadStrSendsRun :
    busWorks clear ∧ 0 < 65536 ∧
      (∀ k, k < 0 → clear.eeByte (addrAfter 5 k) ≠ 0x00#8 ∧ clear.eeByte (addrAfter 5 k) ≠ 0xFF#8) ∧
      (clear.eeByte (addrAfter 5 0) = 0x00#8 ∨ clear.eeByte (addrAfter 5 0) = 0xFF#8) :=
  ⟨busWorks_clear, by decide, fun _ h => absurd h (Nat.not_lt_zero _), .inr rfl⟩

/-- The longest run: 65535 bytes, the 0x00 at the last address. -/
theorem witness_EeReadStrSendsRun_longest :
    let s := letters.setEe [(0xFFFF, 0x00)]
    busWorks s ∧ 65535 < 65536 ∧
      (∀ k, k < 65535 → s.eeByte (addrAfter 0 k) ≠ 0x00#8 ∧ s.eeByte (addrAfter 0 k) ≠ 0xFF#8) ∧
      (s.eeByte (addrAfter 0 65535) = 0x00#8 ∨ s.eeByte (addrAfter 0 65535) = 0xFF#8) := by
  refine ⟨by decide, by decide, fun k hk => ?_, .inl rfl⟩
  have : (letters.setEe [(0xFFFF, 0x00)]).eeByte (addrAfter 0 k) = 0x41 := by
    have hne : ¬0xFFFF = (addrAfter 0 k).toNat := by
      have : (addrAfter 0 k).toNat = k % 65536 := by simp [addrAfter]
      omega
    show Memory.read 0x41 [(0xFFFF, 0x00)] _ = _
    rw [Memory.read, if_neg hne]
    rfl
  rw [this]
  decide

theorem eeByte_letters (b : Addr) : letters.eeByte b ≠ 0x00#8 ∧ letters.eeByte b ≠ 0xFF#8 := by
  have : letters.eeByte b = 0x41 := rfl
  rw [this]
  decide

/-- Before the command, and standing in it. -/
theorem witness_EeReadStrCanReadForEver :
    (busWorks letters ∧ letters.resetIn = false ∧ ∀ b, letters.eeByte b ≠ 0x00#8 ∧ letters.eeByte b ≠ 0xFF#8) ∧
    let s := letters.setParser (.exec (encodeWord (.eeReadStr 5)) (.eeReadStr 5))
    busWorks s ∧ s.resetIn = false ∧ (∀ b, s.eeByte b ≠ 0x00#8 ∧ s.eeByte b ≠ 0xFF#8) ∧
      s.parser = .exec (encodeWord (.eeReadStr 5)) (.eeReadStr 5) :=
  ⟨⟨by decide, rfl, eeByte_letters⟩, by decide, rfl, eeByte_letters, rfl⟩

theorem witness_EepromStringRoundTrip :
    let s := clear.hostSend [0x61, 0x62, 9]
    busWorks s ∧ [0x61#8, 0x62#8].length = (2#16).toNat ∧ 0x00#8 ∉ [0x61#8, 0x62#8] ∧ 0xFF#8 ∉ [0x61#8, 0x62#8] ∧
      s.cmd = [0x61, 0x62] ++ [9] := by decide

/-- The last event each command drives: of its one transaction, of its second one, of the terminator's. -/
theorem witness_StuckBusHoldsUntilReset :
    (let s := clear.setPortPlan (.stuckAfter 8);
      s.busEnabled = true ∧ s.portPlan = .stuckAfter 8 ∧ s.resetIn = false ∧ drivesEvent s 8 (.eeRead 5) ∧ drivesEvent s 8 (.eeReadStr 5)) ∧
    (let s := clear.setPortPlan (.stuckAfter 6);
      s.busEnabled = true ∧ s.portPlan = .stuckAfter 6 ∧ s.resetIn = false ∧ drivesEvent s 6 (.eeWrite 5 1)) ∧
    let s := (clear.setPortPlan (.stuckAfter 13)).hostSend [0x48]
    s.busEnabled = true ∧ s.portPlan = .stuckAfter 13 ∧ s.resetIn = false ∧ drivesEvent s 13 (.eeZero 0xFFFD 0xFFFF) ∧
      drivesEvent s 13 (.eeWriteStr 0xFFFF 1) ∧ s.device = .present ∧
      Memory.wf s.params.eeErased s.ee = true :=
  ⟨⟨rfl, rfl, rfl, by show 8 < 9; decide, .inl (by decide)⟩, ⟨rfl, rfl, rfl, by show 6 < 7; decide⟩, rfl, rfl, rfl,
    by show 13 < 7 * _; decide, .inr (by decide), rfl, by decide⟩

/-- An EE_READSTR that gets stuck after more transactions than one step makes, and one without a device. -/
theorem witness_StuckBusHoldsUntilReset_long :
    (let s := letters.setPortPlan (.stuckAfter 1000000);
      s.busEnabled = true ∧ s.portPlan = .stuckAfter 1000000 ∧ s.resetIn = false ∧ drivesEvent s 1000000 (.eeReadStr 5)) ∧
    let s := { (clear.setPortPlan (.stuckAfter 0)) with device := .silent }
    s.busEnabled = true ∧ s.portPlan = .stuckAfter 0 ∧ s.resetIn = false ∧ drivesEvent s 0 (.eeReadStr 5) ∧ s.device = .silent :=
  ⟨⟨rfl, rfl, rfl, .inr ⟨rfl, fun _ _ => eeByte_letters _⟩⟩, rfl, rfl, rfl, .inl (by decide), rfl⟩

/-- An EE_ZERO with an empty range, an EE_WRITESTR of which only the first payload byte is there, and one that
waits for its payload. -/
theorem witness_DisabledBusStopsEveryEeCommand :
    (let s := (clear.enableBus false).hostSend [0x41];
      s.busEnabled = false ∧ s.portPlan ≠ .resetAfter 0 ∧ s.resetIn = false ∧ usesBus (.eeZero 5 5) = true ∧
        waitsForPayload s (.eeZero 5 5) = false ∧ usesBus (.eeWriteStr 0 2) = true ∧
        waitsForPayload s (.eeWriteStr 0 2) = false) ∧
    let s := (clear.enableBus false).hostSend [0, 0x41]
    s.busEnabled = false ∧ s.portPlan ≠ .resetAfter 0 ∧ s.resetIn = false ∧ usesBus (.eeWriteStr 0 3) = true ∧
      waitsForPayload s (.eeWriteStr 0 3) = true ∧ payloadLength (.eeWriteStr 0 3) ≤ s.cmd.length + [9#8].length := by
  decide

theorem witness_SilentDeviceIsNotAnError :
    ({ clear with device := .silent } : State).busEnabled = true ∧ ({ clear with device := .silent } : State).portPlan = .free ∧
      ({ clear with device := .silent } : State).device = .silent := by decide

/-- RESET before the first event, and within the settle of the second transaction. -/
theorem witness_ResetCutsEeZero :
    (clear.busEnabled = true ∧ clear.device = .present ∧ Memory.wf clear.params.eeErased clear.ee = true ∧ 0 < 7 ∧
      (5#16).toNat + 0 < (6#16).toNat ∧ (clear.setPortPlan (.resetAfter 0)).portPlan = .resetAfter (7 * 0 + 0)) ∧
    6 < 7 ∧ (0xFFFD#16).toNat + 1 < (0xFFFF#16).toNat ∧
      (clear.setPortPlan (.resetAfter 13)).portPlan = .resetAfter (7 * 1 + 6) := by decide

/-- RESET before any event, within the settle, and within the terminator's transaction. -/
theorem witness_ResetCutsEeWriteAndEeWriteStr :
    (clear.busEnabled = true ∧ clear.device = .present ∧ Memory.wf clear.params.eeErased clear.ee = true) ∧
    (0 < 7 ∧ (clear.setPortPlan (.resetAfter 0)).portPlan = .resetAfter 0) ∧
    (6 < 7 ∧ (clear.setPortPlan (.resetAfter 6)).portPlan = .resetAfter 6) ∧
    let s := (clear.setPortPlan (.resetAfter 13)).hostSend [0x48]
    s.busEnabled = true ∧ s.device = .present ∧ Memory.wf s.params.eeErased s.ee = true ∧ 6 < 7 ∧
      drivesEvent s (7 * 1 + 6) (.eeWriteStr 0xFFFF 1) ∧ s.portPlan = .resetAfter (7 * 1 + 6) :=
  ⟨⟨rfl, rfl, by decide⟩, ⟨by decide, rfl⟩, ⟨by decide, rfl⟩, rfl, rfl, by decide, by decide, .inr (by decide), rfl⟩

/-- RESET before the frame, and before its last event. -/
theorem witness_ResetCutsFlush :
    ((clear.setPortPlan (.resetAfter 0)).portPlan = .resetAfter 0 ∧ 0 < 506) ∧
      (clear.setPortPlan (.resetAfter 505)).portPlan = .resetAfter 505 ∧ 505 < 506 := by decide

end Sys2Proof.Tests
end

section
/-!
Proofs of the state family: what one step can do, what a command writes, what a step keeps, and how a command that
waits for bytes goes on.
-/

namespace Sys2Proof.Proofs

open Sys2Proof.Machine Sys2Proof.Claims

/-! ## Taking a header (R27, R80) -/

theorem splitBytes_append_left (l bs : List Byte) (n : Nat) :
    splitBytes (n + l.length) (l ++ bs) = (splitBytes n bs).map fun p => (l ++ p.1, p.2) := by
  induction l with
  | nil => simp
  | cons b l ih =>
    rw [List.length_cons, ← Nat.add_assoc, List.cons_append, splitBytes, ih, Option.map_map]
    rfl

/-- A header that is all there is taken. -/
theorem fetch_of_complete {s : State} {got h rest : List Byte} (hl : got.length + h.length = 8)
    (hc : s.cmd = h ++ rest) :
    s.fetch got = .word (wordOfBytes (got ++ h)) ((s.setCmd rest).setParser .idle) := by
  have hn : 8 - got.length = h.length := by omega
  rw [State.fetch, hc, hn, splitBytes_append]

/-- A header that is not all there is waited for. -/
theorem fetch_of_short {s : State} {got : List Byte} (hl : got.length + s.cmd.length < 8) :
    s.fetch got = .held ((s.setCmd []).setParser (headerSoFar (got ++ s.cmd))) := by
  have hn : splitBytes (8 - got.length) s.cmd = none := splitBytes_none_iff.mpr (by omega)
  rw [State.fetch, hn]

/-- Header bytes count alike whether they were taken earlier or stand at the head of the stream (R27). -/
theorem fetch_append {s : State} {got : List Byte} (hl : got.length + s.cmd.length < 8) (p : Parser)
    (bs : List Byte) :
    (((s.setCmd []).setParser p).hostSend bs).fetch (got ++ s.cmd) = (s.hostSend bs).fetch got := by
  have hn : 8 - got.length = (8 - (got ++ s.cmd).length) + s.cmd.length := by
    rw [List.length_append]; omega
  have hsplit := splitBytes_append_left s.cmd bs (8 - (got ++ s.cmd).length)
  rw [← hn] at hsplit
  simp only [State.fetch, State.hostSend_cmd, State.setParser_cmd, State.setCmd_cmd, List.nil_append, hsplit]
  cases splitBytes (8 - (got ++ s.cmd).length) bs with
  | none => simp only [Option.map_none, List.append_assoc]; rfl
  | some q => simp only [Option.map_some, List.append_assoc]; rfl

theorem parserOk_headerSoFar {bs : List Byte} (hl : bs.length ≤ 7) : parserOk (headerSoFar bs) = true := by
  cases bs with
  | nil => rfl
  | cons b bs => simpa [headerSoFar, parserOk] using hl

/-! ## What one step can do -/

theorem step_of_headerSoFar {s : State} {got : List Byte} (hr : s.resetIn = false) (hp : s.parser = headerSoFar got)
    (hl : got.length ≤ 7) : step s = fetchAndRun got s := by
  have hok := parserOk_headerSoFar hl
  cases got with
  | nil => simp [step, hr, hp, headerSoFar, parserOk]
  | cons b got => rw [step, hr, hp, hok]; rfl

/-- A step with the whole header there runs its word (R26, R80). -/
theorem step_of_headerArrives {s : State} {got h rest : List Byte} (ha : headerArrives s got h rest) :
    step s = runWord (wordOfBytes (got ++ h)) ((s.setCmd rest).setParser .idle) := by
  obtain ⟨hr, hp, hl, hh, hc⟩ := ha
  rw [step_of_headerSoFar hr hp hl, fetchAndRun, fetch_of_complete hh hc]

/-- A step with too few header bytes takes those there are (R60). -/
theorem step_of_shortHeader {s : State} {got : List Byte} (hr : s.resetIn = false) (hp : s.parser = headerSoFar got)
    (hl : got.length + s.cmd.length < 8) :
    step s = .next ((s.setCmd []).setParser (headerSoFar (got ++ s.cmd))) := by
  rw [step_of_headerSoFar hr hp (by omega), fetchAndRun, fetch_of_short hl]

/-- A step in the middle of a command goes on with it (R27). -/
theorem step_of_exec {s : State} {cw : CmdWord} {p : Progress} (hr : s.resetIn = false) (hp : s.parser = .exec cw p)
    (hok : progressOk p = true) : step s = .next (resumeExec cw p s) := by
  simp [step, hr, hp, parserOk, hok]

/-- From a parser that takes a header, the step waits for the rest of it or runs its word. -/
theorem step_next_cases_of_headerSoFar {s t : State} {got : List Byte} (hr : s.resetIn = false)
    (hp : s.parser = headerSoFar got) (hl : got.length ≤ 7) (h : step s = .next t) :
    (got.length + s.cmd.length < 8 ∧ t = (s.setCmd []).setParser (headerSoFar (got ++ s.cmd))) ∨
    (∃ hd rest, headerArrives s got hd rest ∧
      runWord (wordOfBytes (got ++ hd)) ((s.setCmd rest).setParser .idle) = .next t) := by
  obtain ⟨hlt, -⟩ | ⟨hd, rest, hc, hlen, -⟩ := fetch_cases got s
  · have hshort : got.length + s.cmd.length < 8 := by omega
    exact .inl ⟨hshort, Host.Outcome.next.inj (h.symm.trans (step_of_shortHeader hr hp hshort))⟩
  · have ha : headerArrives s got hd rest := ⟨hr, hp, hl, by omega, hc⟩
    exact .inr ⟨hd, rest, ha, (step_of_headerArrives ha).symm.trans h⟩

/-- Where a step's next state comes from: RESET, a header that is waited for, a whole header, a command that held. -/
theorem step_next_cases {s t : State} (h : step s = .next t) :
    (s.resetIn = true ∧ t = s.takeReset) ∨
    (∃ got, s.resetIn = false ∧ s.parser = headerSoFar got ∧ got.length + s.cmd.length < 8 ∧
      t = (s.setCmd []).setParser (headerSoFar (got ++ s.cmd))) ∨
    (∃ got hd rest, headerArrives s got hd rest ∧
      runWord (wordOfBytes (got ++ hd)) ((s.setCmd rest).setParser .idle) = .next t) ∨
    (∃ cw p, s.resetIn = false ∧ s.parser = .exec cw p ∧ progressOk p = true ∧ t = resumeExec cw p s) := by
  obtain ⟨hr, hs⟩ | ⟨-, -, hs⟩ | ⟨hr, hp, -⟩ | ⟨got, hr, hok, hp, -⟩ | ⟨cw, p, hr, hok, hp, hs⟩ := step_cases s
  · exact .inl ⟨hr, Host.Outcome.next.inj (h.symm.trans hs)⟩
  · rw [hs] at h; cases h
  · obtain ⟨hl, ht⟩ | hrun := step_next_cases_of_headerSoFar (got := []) hr hp (by simp) h
    · exact .inr (.inl ⟨[], hr, hp, hl, ht⟩)
    · exact .inr (.inr (.inl ⟨[], hrun⟩))
  · rw [hp] at hok
    have hlen : 1 ≤ got.length ∧ got.length ≤ 7 := of_decide_eq_true hok
    have hgot : s.parser = headerSoFar got := by
      rw [hp, headerSoFar, if_neg (List.ne_nil_of_length_pos hlen.1)]
    obtain ⟨hl, ht⟩ | hrun := step_next_cases_of_headerSoFar hr hgot hlen.2 h
    · exact .inr (.inl ⟨got, hr, hgot, hl, ht⟩)
    · exact .inr (.inr (.inl ⟨got, hrun⟩))
  · rw [hp] at hok
    exact .inr (.inr (.inr ⟨cw, p, hr, hp, hok, Host.Outcome.next.inj (h.symm.trans hs)⟩))

/-- Settles O6: a whole header runs its word, and the word is a command. -/
theorem stepRunsDecodedCommand : Obligations.StepRunsDecodedCommand := by
  intro s got h rest i ha hd
  rw [step_of_headerArrives ha, runWord, hd]

/-- Settles O7: without a new byte the parser already holds all that the step would put there. -/
theorem stepWaitsForHeader : Obligations.StepWaitsForHeader := by
  intro s got hr hp hl
  have hs := step_of_shortHeader hr hp hl
  refine ⟨hs, fun hc => ?_⟩
  rw [hs, hc, List.append_nil, ← hp, ← hc]
  rfl

/-- Settles O25: bit `b` of byte `i` is the pixel in column `i mod 84`, `b` rows below the top of page `i div 84`. -/
theorem everyBitIsOnePixel : Obligations.EveryBitIsOnePixel := by
  intro i b hi hb
  have hindex : pixIndex ((i % 84 : Nat) : Int) ((8 * (i / 84) + b : Nat) : Int) = i := by
    simp only [pixIndex, Int.toNat_natCast]; omega
  have hbit : pixBit ((8 * (i / 84) + b : Nat) : Int) = b := by
    simp only [pixBit, Int.toNat_natCast]; omega
  have hon : onScreen ((i % 84 : Nat) : Int) ((8 * (i / 84) + b : Nat) : Int) = true :=
    onScreen_iff.mpr (by omega)
  refine ⟨_, _, onScreen_iff.mp hon, fun v => by rw [pixRead, hindex, hbit], hindex, hbit, ?_⟩
  intro x' y' hxy hi' hb'
  exact pixel_place_injective (onScreen_iff.mpr hxy) hon (hi'.trans hindex.symm) (hb'.trans hbit.symm)

/-! ## What the parts of the commands write -/

/-- A read transaction writes neither a stream nor the EEPROM (R62). -/
theorem eeRead_streams (a : Addr) (s : State) :
    (s.eeRead a).1.cmd = s.cmd ∧ (s.eeRead a).1.rsp = s.rsp ∧ (s.eeRead a).1.ee = s.ee := by
  obtain ⟨t, h, ht⟩ | ⟨t, h, ht⟩ := eeRead_cases a s <;> rw [h, ht] <;> exact ⟨rfl, rfl, rfl⟩

/-- A write transaction writes neither stream. -/
theorem eeWrite_streams (a : Addr) (d : Byte) (s : State) :
    (s.eeWrite a d).1.cmd = s.cmd ∧ (s.eeWrite a d).1.rsp = s.rsp := by
  obtain ⟨t, h, ht⟩ | ⟨t, h, ht⟩ := eeWrite_cases a d s <;> rw [h, ht] <;> exact ⟨rfl, rfl⟩

theorem eeWriteLast_streams (cw : CmdWord) (a : Addr) (d : Byte) (s : State) :
    (eeWriteLast cw a d s).cmd = s.cmd ∧ (eeWriteLast cw a d s).rsp = s.rsp := by
  have hw := eeWrite_streams a d s
  rw [eeWriteLast]
  split <;> next h => rw [h] at hw; exact hw

theorem eeWriteStrFrom_rsp (cw : CmdWord) (left : Nat) (a : Addr) (stopped : Bool) (s : State) :
    (eeWriteStrFrom cw left a stopped s).rsp = s.rsp := by
  induction left generalizing a stopped s with
  | zero => exact (eeWriteLast_streams cw a 0x00#8 s).2
  | succ left ih =>
    rw [eeWriteStrFrom]
    split
    · rfl
    · next b rest hc =>
      have hw := (eeWrite_streams a b (s.setCmd rest)).2
      split
      · exact ih ..
      · split
        · exact ih ..
        · split
          · next h => rw [h] at hw; exact (ih ..).trans hw
          · next h => rw [h] at hw; exact hw

theorem eeZeroFrom_streams (cw : CmdWord) (n : Nat) (a : Addr) (s : State) :
    (eeZeroFrom cw n a s).cmd = s.cmd ∧ (eeZeroFrom cw n a s).rsp = s.rsp := by
  induction n generalizing a s with
  | zero => rw [eeZeroFrom]; split <;> exact ⟨rfl, rfl⟩
  | succ n ih =>
    have hw := eeWrite_streams a 0x00#8 s
    rw [eeZeroFrom]
    split
    · next t h => rw [h] at hw; exact ⟨(ih _ t).1.trans hw.1, (ih _ t).2.trans hw.2⟩
    · next h => rw [h] at hw; exact hw

theorem eeReadStrFrom_streams (cw : CmdWord) (n : Nat) (a : Addr) (s : State) :
    (eeReadStrFrom cw n a s).cmd = s.cmd ∧ (eeReadStrFrom cw n a s).ee = s.ee := by
  induction n generalizing a s with
  | zero => exact ⟨rfl, rfl⟩
  | succ n ih =>
    obtain ⟨hcmd, -, hee⟩ := eeRead_streams a s
    rw [eeReadStrFrom]
    split
    · next h => rw [h] at hcmd hee; exact ⟨hcmd, hee⟩
    · next t d h =>
      rw [h] at hcmd hee
      split
      · exact ⟨hcmd, hee⟩
      · exact ⟨(ih _ (t.respond [d])).1.trans hcmd, (ih _ (t.respond [d])).2.trans hee⟩

/-- EE_READ (R226), in the shape the loops of the other EEPROM commands have. -/
theorem execEeRead_frame (a : Addr) (s : State) :
    ∃ t, execEeRead a s = .next t ∧ t.cmd = s.cmd ∧ t.ee = s.ee ∧
      EepromFrame (encodeWord (.eeRead a)) (fun _ => False) s t := by
  obtain ⟨hcmd, -, hee⟩ := eeRead_streams a s
  rw [execEeRead]
  obtain ⟨t, d, h, hp, hb, hr, -, -, -, hf⟩ | ⟨t, h, hf⟩ :=
    eeRead_frame (encodeWord (.eeRead a)) (fun _ => False) a s <;> rw [h] at hcmd hee ⊢
  · exact ⟨_, rfl, hcmd, hee, hf.trans hp hb hr
      ⟨rfl, rfl, rfl, rfl, rfl, rfl, rfl, rfl, rfl, rfl, .inl ⟨rfl, rfl, rfl⟩, id⟩⟩
  · exact ⟨_, rfl, hcmd, hee, hf⟩

/-- DRAWSTRING, from any cursor: it writes only the framebuffer, the cursor, the command stream and the parser. -/
theorem drawStringFrom_writes (cw : CmdWord) (bs : List Byte) (s : State) :
    ∃ v x y c p, drawStringFrom cw bs s = { s with vram := v, curCol := x, curRow := y, cmd := c, parser := p } ∧
      (s.curCol ≤ 83 → s.curRow ≤ 5 → x ≤ 83 ∧ y ≤ 5) ∧ (p = s.parser ∨ p = .exec cw .drawString) := by
  induction bs generalizing s with
  | nil => exact ⟨s.vram, s.curCol, s.curRow, [], _, rfl, fun hc hr => ⟨hc, hr⟩, .inr rfl⟩
  | cons b rest ih =>
    rw [drawStringFrom]
    split
    · exact ⟨s.vram, s.curCol, s.curRow, rest, s.parser, rfl, fun hc hr => ⟨hc, hr⟩, .inl rfl⟩
    · obtain ⟨v, x, y, c, p, heq, hcur, hp⟩ := ih (charStep b s)
      have hcs : s.curCol ≤ 83 → s.curRow ≤ 5 → (charStep b s).curCol ≤ 83 ∧ (charStep b s).curRow ≤ 5 :=
        charStep_cursor
      rw [charStep_frame b s] at heq hp
      exact ⟨v, x, y, c, p, (charStep_frame b s) ▸ heq, fun hc hr => hcur (hcs hc hr).1 (hcs hc hr).2, hp⟩

/-- DRAWLARGE writes only the framebuffer, the cursor and, for a code outside the alphabet, STATUS and the fault
mark (R186, R287). -/
theorem execDrawLarge_writes (code : Byte) (s : State) :
    ∃ v x y b m, execDrawLarge code s =
        .next { s with vram := v, curCol := x, curRow := y, status := b, faultMark := m } ∧
      (s.curCol ≤ 83 → s.curRow ≤ 5 → x ≤ 83 ∧ y ≤ 5) ∧
      (b = s.status ∨ b = statusRaise .badGlyph s.status) ∧
      (m = s.faultMark ∨ (m = true ∧ s.params.badGlyph = .fault)) := by
  have hcursor : ∀ w, s.curCol ≤ 83 → s.curRow ≤ 5 →
      (if s.curCol + w > 83 then 0 else s.curCol + w) ≤ 83 ∧
        (if s.curCol + w > 83 then rowBelow s.curRow else s.curRow) ≤ 5 := fun w hc hr => by
    have := rowBelow_le s.curRow
    split <;> omega
  rw [execDrawLarge]
  split
  · rw [putLarge_frame]
    exact ⟨_, _, _, s.status, s.faultMark, rfl, hcursor _, .inl rfl, .inl rfl⟩
  · rw [State.badLarge]
    split
    · rw [putLarge_frame]
      exact ⟨_, _, _, _, s.faultMark, rfl, hcursor _, .inr rfl, .inl rfl⟩
    · next hpol => exact ⟨s.vram, s.curCol, s.curRow, _, true, rfl, fun hc hr => ⟨hc, hr⟩, .inr rfl, .inr ⟨rfl, hpol⟩⟩

/-- The display link: only the record of the ports, the plan and the RESET input change. -/
theorem drive_panelLink_frame (es : List PortEvent) (s : State) :
    ∃ t r, s.drive .panelLink es = (t, r) ∧
      t = { s with ports := t.ports, portPlan := t.portPlan, resetIn := t.resetIn } := by
  rw [drive_panelLink]
  obtain ⟨-, h⟩ | ⟨n, -, -, h⟩ | ⟨n, -, -, -, h⟩ | ⟨n, -, -, -, h⟩ | ⟨n, -, -, h⟩ | ⟨n, -, -, h⟩ :=
    driveEnabled_cases .panelLink es s <;> exact ⟨_, _, h, rfl⟩

/-- FLUSH completes with chip-select disabled, or RESET cuts its frame and it stops at the port (R116). -/
theorem execFlush_writes (s : State) :
    ∃ ps pl ri pn cs p, execFlush s = .next { s with
        ports := ps, portPlan := pl, resetIn := ri, panel := pn, chipSelect := cs, parser := p } ∧
      ((p = s.parser ∧ cs = false) ∨ p = .exec (encodeWord .flush) .port) := by
  obtain ⟨t, r, h, ht⟩ := drive_panelLink_frame (flushEvents s.vram) s
  rw [execFlush, h, ht]
  cases r with
  | none => exact ⟨_, _, _, _, _, _, rfl, .inl ⟨rfl, rfl⟩⟩
  | some n =>
    by_cases hn : 505 ≤ n <;> simp only [hn, if_true, if_false] <;> exact ⟨_, _, _, _, _, _, rfl, .inr rfl⟩

/-! ## Which command writes what (R21, R25, R28, R33, R34, R231, R317) -/

/-- The statement of OnlyNamedCommandsWrite about one command and its next state, a field for each piece of state. -/
structure CommandFrame (i : Instr) (s t : State) : Prop where
  vram : mayWriteVram i = false → t.vram = s.vram := by exact fun _ => rfl
  cursor : mayMoveCursor i = false → t.curCol = s.curCol ∧ t.curRow = s.curRow := by exact fun _ => ⟨rfl, rfl⟩
  status : mayWriteStatus i = false → t.status = s.status := by exact fun _ => rfl
  cmd : takesPayload i = false → t.cmd = s.cmd := by exact fun _ => rfl
  rsp : responds i = false → t.rsp = s.rsp := by exact fun _ => rfl
  ee : mayWriteEeprom i = false → t.ee = s.ee := by exact fun _ => rfl
  bus : usesBus i = false → t.bus = s.bus ∧ t.draws = s.draws := by exact fun _ => ⟨rfl, rfl⟩
  panel : usesPanel i = false → t.panel = s.panel ∧ t.chipSelect = s.chipSelect := by exact fun _ => ⟨rfl, rfl⟩
  ports : usesBus i = false → usesPanel i = false →
    t.ports = s.ports ∧ t.portPlan = s.portPlan ∧ t.resetIn = s.resetIn := by exact fun _ _ => ⟨rfl, rfl, rfl⟩
  parser : takesPayload i = false → usesBus i = false → usesPanel i = false → t.parser = s.parser := by
    exact fun _ _ _ => rfl
  faultMark : mnemonic i ≠ "DRAWLARGE" → t.faultMark = s.faultMark := by exact fun _ => rfl
  params : t.params = s.params := by rfl
  device : t.device = s.device := by rfl
  busEnabled : t.busEnabled = s.busEnabled := by rfl

/-- A command of the EEPROM, from the frame of its transactions and from what it leaves of the streams and the
EEPROM's content. -/
theorem CommandFrame.of_eepromFrame {i : Instr} {cw : CmdWord} {w : Progress → Prop} {s t : State}
    (hi : usesBus i = true) (hf : EepromFrame cw w s t) (hcmd : takesPayload i = false → t.cmd = s.cmd)
    (hrsp : responds i = false → t.rsp = s.rsp) (hee : mayWriteEeprom i = false → t.ee = s.ee) :
    CommandFrame i s t where
  vram _ := hf.vram
  cursor _ := ⟨hf.curCol, hf.curRow⟩
  status _ := hf.status
  cmd := hcmd
  rsp := hrsp
  ee := hee
  bus h := absurd hi (by simp [h])
  panel _ := ⟨hf.panel, hf.chipSelect⟩
  ports h := absurd hi (by simp [h])
  parser _ h := absurd hi (by simp [h])
  faultMark _ := hf.faultMark
  params := hf.params
  device := hf.device
  busEnabled := hf.busEnabled

/-- A command that writes the framebuffer alone. -/
theorem CommandFrame.of_setVram {i : Instr} (hi : mayWriteVram i = true) (v : Vram) (s : State) :
    CommandFrame i s (s.setVram v) where
  vram h := absurd hi (by simp [h])

/-- A command that writes the framebuffer and the cursor. -/
theorem CommandFrame.of_text {i : Instr} (hv : mayWriteVram i = true) (hc : mayMoveCursor i = true) (v : Vram)
    (x y : Nat) (s : State) : CommandFrame i s { s with vram := v, curCol := x, curRow := y } where
  vram h := absurd hv (by simp [h])
  cursor h := absurd hc (by simp [h])

/-- A command that only responds. -/
theorem CommandFrame.of_respond {i : Instr} (hi : responds i = true) (bs : List Byte) (s : State) :
    CommandFrame i s (s.respond bs) where
  rsp h := absurd hi (by simp [h])

/-- Every command writes what the rules let it write, and nothing else. -/
theorem exec_frame {i : Instr} {s t : State} (h : exec i s = .next t) : CommandFrame i s t := by
  cases i with
  | nop => cases h; exact {}
  | clear | setPixel | invert | plot | line | rect | bar | circle => cases h; exact .of_setVram rfl _ s
  | serialize | getStatus => cases h; exact .of_respond rfl _ s
  | loadBitmap =>
    cases h
    obtain ⟨v, c, p, heq, -⟩ := loadBitmapFrom_frame (encodeWord .loadBitmap) 504 s
    rw [heq]
    exact { vram := nofun, cmd := nofun, parser := nofun }
  | flush =>
    obtain ⟨ps, pl, ri, pn, cs, p, heq, -⟩ := execFlush_writes s
    cases heq.symm.trans h
    exact { panel := nofun, ports := nofun, parser := nofun }
  | gotoXY => cases h; exact { cursor := nofun }
  | drawChar code =>
    cases h
    rw [charStep_frame]
    exact .of_text rfl rfl _ _ _ s
  | drawString =>
    cases h
    obtain ⟨v, x, y, c, p, heq, -⟩ := drawStringFrom_writes (encodeWord .drawString) s.cmd s
    rw [heq]
    exact { vram := nofun, cursor := nofun, cmd := nofun, parser := nofun }
  | drawLarge code =>
    obtain ⟨v, x, y, b, m, heq, -⟩ := execDrawLarge_writes code s
    cases heq.symm.trans h
    exact { vram := nofun, cursor := nofun, status := nofun, faultMark := fun hne => absurd rfl hne }
  | eeRead a =>
    obtain ⟨u, heq, hcmd, hee, hf⟩ := execEeRead_frame a s
    cases heq.symm.trans h
    exact .of_eepromFrame rfl hf (fun _ => hcmd) nofun (fun _ => hee)
  | eeWrite a d =>
    cases h
    have hs := eeWriteLast_streams (encodeWord (.eeWrite a d)) a d s
    exact .of_eepromFrame rfl (eeWriteLast_frame _ (fun _ => False) a d s) (fun _ => hs.1) (fun _ => hs.2) nofun
  | eeWriteStr a len =>
    cases h
    exact .of_eepromFrame rfl (eeWriteStrFrom_frame ..) nofun (fun _ => eeWriteStrFrom_rsp ..) nofun
  | eeReadStr a =>
    cases h
    have hs := eeReadStrFrom_streams (encodeWord (.eeReadStr a)) readStrBurst a s
    exact .of_eepromFrame rfl (eeReadStrFrom_frame ..) (fun _ => hs.1) nofun (fun _ => hs.2)
  | eeZero first limit =>
    cases h
    have hs := eeZeroFrom_streams (encodeWord (.eeZero first limit)) (rangeLength first limit) first s
    exact .of_eepromFrame rfl (eeZeroFrom_frame ..) (fun _ => hs.1) (fun _ => hs.2) nofun
  | clrErr => cases h; exact { status := nofun }

/-- Settles O17, field by field from `exec_frame`. -/
theorem onlyNamedCommandsWrite : Obligations.OnlyNamedCommandsWrite := by
  intro i s t h
  have hf := exec_frame h
  exact ⟨hf.vram, hf.cursor, hf.status, hf.cmd, hf.rsp, hf.ee, hf.bus, hf.panel, hf.ports, hf.parser, hf.faultMark,
    hf.params, hf.device, hf.busEnabled⟩

/-! ## What a step keeps -/

/-- What every command, every part of a command and every rejected packet keeps, whatever else it writes. `clears`
says when STATUS may be cleared. -/
structure Keeps (clears : Prop) (s t : State) : Prop where
  params : t.params = s.params := by rfl
  device : t.device = s.device := by rfl
  busEnabled : t.busEnabled = s.busEnabled := by rfl
  mark : t.faultMark = s.faultMark ∨ (t.faultMark = true ∧ s.params.badGlyph = .fault) := by exact .inl rfl
  cursor : s.curCol ≤ 83 → s.curRow ≤ 5 → t.curCol ≤ 83 ∧ t.curRow ≤ 5 := by exact fun hc hr => ⟨hc, hr⟩
  status : t.status = s.status ∨ (∃ e, t.status = statusRaise e s.status) ∨ (clears ∧ t.status = statusClear) := by
    exact .inl rfl
  memory : Memory.wf s.params.eeErased s.ee = true → Memory.wf s.params.eeErased t.ee = true := by exact id
  parser : parserOk s.parser = true → parserOk t.parser = true := by exact id
  bus : t.atPort = false → t.bus = s.bus := by exact fun _ => rfl
  select : t.atPort = false → t.chipSelect = s.chipSelect ∨ t.chipSelect = false := by exact fun _ => .inl rfl

theorem atPort_of_parser {t : State} {cw : CmdWord} (h : t.parser = .exec cw .port) : t.atPort = true := by
  simp [State.atPort, h]

theorem Keeps.refl (clears : Prop) (s : State) : Keeps clears s s := {}

theorem Keeps.of_setVram (clears : Prop) (v : Vram) (s : State) : Keeps clears s (s.setVram v) := {}

theorem Keeps.of_respond (clears : Prop) (bs : List Byte) (s : State) : Keeps clears s (s.respond bs) := {}

theorem Keeps.weaken {c d : Prop} {s t : State} (hcd : c → d) (h : Keeps c s t) : Keeps d s t where
  __ := h
  status := h.status.imp_right (.imp_right fun hs => ⟨hcd hs.1, hs.2⟩)

/-- From a state that is not stopped at a port the invariant is kept. -/
theorem Keeps.inv {clears : Prop} {s t : State} (h : Keeps clears s t) (hs : s.Inv) (hp : s.atPort = false) :
    t.Inv where
  col := (h.cursor hs.col hs.row).1
  row := (h.cursor hs.col hs.row).2
  status := by
    obtain heq | ⟨e, heq⟩ | ⟨-, heq⟩ := h.status <;> rw [heq]
    · exact hs.status
    · exact statusLegal_raise hs.status e
    · exact statusLegal_clear
  parser := h.parser hs.parser
  memory := by rw [h.params]; exact h.memory hs.memory
  bus ht := (h.bus ht).trans (hs.bus hp)
  select ht := (h.select ht).elim (fun heq => heq.trans (hs.select hp)) id
  mark ht := by
    rw [h.params]
    exact h.mark.elim (fun heq => hs.mark (heq ▸ ht)) fun hm => hm.2

/-- The EEPROM's transactions: a wait they may end in has to be one of R27's. -/
theorem Keeps.of_eepromFrame {clears : Prop} {cw : CmdWord} {w : Progress → Prop} {s t : State}
    (hf : EepromFrame cw w s t) (hw : ∀ p, w p → progressOk p = true) : Keeps clears s t where
  params := hf.params
  device := hf.device
  busEnabled := hf.busEnabled
  mark := .inl hf.faultMark
  cursor hc hr := ⟨hf.curCol ▸ hc, hf.curRow ▸ hr⟩
  status := .inl hf.status
  memory := hf.memory
  parser ho := by
    obtain ⟨hp, -, -⟩ | hp | ⟨p, hwp, hp, -, -⟩ := hf.stops <;> rw [hp]
    · exact ho
    · rfl
    · exact hw p hwp
  bus ht := by
    obtain ⟨-, hb, -⟩ | hp | ⟨p, -, -, hb, -⟩ := hf.stops
    · exact hb
    · rw [atPort_of_parser hp] at ht; cases ht
    · exact hb
  select _ := .inl hf.chipSelect

/-! ### The parts of the commands -/

theorem loadBitmapFrom_keeps (clears : Prop) (cw : CmdWord) (left : Nat) (s : State) :
    Keeps clears s (loadBitmapFrom cw left s) := by
  obtain ⟨v, c, p, heq, hp⟩ := loadBitmapFrom_frame cw left s
  rw [heq]
  refine { parser := fun ho => ?_ }
  obtain rfl | ⟨-, k, hk, rfl⟩ := hp
  · exact ho
  · simpa [parserOk, progressOk] using hk

theorem drawStringFrom_keeps (clears : Prop) (cw : CmdWord) (bs : List Byte) (s : State) :
    Keeps clears s (drawStringFrom cw bs s) := by
  obtain ⟨v, x, y, c, p, heq, hcur, hp⟩ := drawStringFrom_writes cw bs s
  rw [heq]
  refine { cursor := hcur, parser := fun ho => ?_ }
  obtain rfl | rfl := hp
  · exact ho
  · rfl

theorem eeWriteStrFrom_keeps (clears : Prop) (cw : CmdWord) {left : Nat} (hl : left < 65536) (a : Addr)
    (stopped : Bool) (s : State) : Keeps clears s (eeWriteStrFrom cw left a stopped s) := by
  refine .of_eepromFrame (eeWriteStrFrom_frame cw left a stopped s) ?_
  rintro _ ⟨a', k, b, hk, hkl, rfl⟩
  exact decide_eq_true ⟨hk, by omega⟩

theorem eeReadStrFrom_keeps (clears : Prop) (cw : CmdWord) (n : Nat) (a : Addr) (s : State) :
    Keeps clears s (eeReadStrFrom cw n a s) := by
  refine .of_eepromFrame (eeReadStrFrom_frame cw n a s) ?_
  rintro _ ⟨a', rfl⟩
  rfl

theorem discardFrom_keeps (clears : Prop) (cw : CmdWord) {n : Nat} (hn : n < 65536) (s : State) :
    Keeps clears s (discardFrom cw n s) := by
  obtain ⟨c, p, heq, hp⟩ := discardFrom_frame cw n s
  rw [heq]
  refine { parser := fun ho => ?_ }
  obtain rfl | ⟨-, k, hk, hkn, rfl⟩ := hp
  · exact ho
  · exact decide_eq_true ⟨hk, by omega⟩

theorem discardThroughNullFrom_keeps (clears : Prop) (cw : CmdWord) (bs : List Byte) (s : State) :
    Keeps clears s (discardThroughNullFrom cw bs s) := by
  obtain ⟨c, p, heq, hp⟩ := discardThroughNullFrom_frame cw bs s
  rw [heq]
  refine { parser := fun ho => ?_ }
  obtain rfl | ⟨-, rfl⟩ := hp
  · exact ho
  · rfl

/-! ### Commands, rejected packets, commands that go on -/

/-- Every command; CLRERR alone clears STATUS. -/
theorem exec_keeps {i : Instr} {s t : State} (h : exec i s = .next t) : Keeps (i = .clrErr) s t := by
  cases i with
  | nop => cases h; exact .refl _ s
  | clear | setPixel | invert | plot | line | rect | bar | circle => cases h; exact .of_setVram _ _ s
  | serialize | getStatus => cases h; exact .of_respond _ _ s
  | loadBitmap => cases h; exact loadBitmapFrom_keeps ..
  | flush =>
    obtain ⟨ps, pl, ri, pn, cs, p, heq, hp⟩ := execFlush_writes s
    cases heq.symm.trans h
    obtain ⟨rfl, rfl⟩ | rfl := hp
    · exact { select := fun _ => .inr rfl }
    · exact { parser := fun _ => rfl, select := nofun }
  | gotoXY => cases h; exact { cursor := fun _ _ => ⟨Nat.min_le_right .., Nat.min_le_right ..⟩ }
  | drawChar code =>
    cases h
    have hcur : s.curCol ≤ 83 → s.curRow ≤ 5 → _ := charStep_cursor (code := code)
    rw [charStep_frame] at hcur ⊢
    exact { cursor := hcur }
  | drawString => cases h; exact drawStringFrom_keeps ..
  | drawLarge code =>
    obtain ⟨v, x, y, b, m, heq, hcur, hb, hm⟩ := execDrawLarge_writes code s
    cases heq.symm.trans h
    exact { cursor := hcur, status := hb.imp_right fun hr => .inl ⟨_, hr⟩, mark := hm }
  | eeRead a =>
    obtain ⟨u, heq, -, -, hf⟩ := execEeRead_frame a s
    cases heq.symm.trans h
    exact .of_eepromFrame hf nofun
  | eeWrite a d => cases h; exact .of_eepromFrame (eeWriteLast_frame _ (fun _ => False) a d s) nofun
  | eeWriteStr a len => cases h; exact eeWriteStrFrom_keeps _ _ len.isLt ..
  | eeReadStr a => cases h; exact eeReadStrFrom_keeps ..
  | eeZero first limit => cases h; exact .of_eepromFrame (eeZeroFrom_frame ..) nofun
  | clrErr => cases h; exact { status := .inr (.inr ⟨rfl, rfl⟩) }

/-- No opcode has a payload of 2^16 bytes or more (R84). -/
theorem cwPayload_lt {cw : CmdWord} {n : Nat} (h : cwPayload cw = .bytes n) : n < 65536 := by
  have hlen := (cwAddr2 cw).isLt
  unfold cwPayload at h
  split at h <;> cases h <;> omega

theorem rejectIllegal_keeps (clears : Prop) (s : State) : Keeps clears s (rejectIllegal s) where
  status := .inr (.inl ⟨_, rfl⟩)

theorem rejectReserved_keeps (clears : Prop) (cw : CmdWord) (s : State) : Keeps clears s (rejectReserved cw s) := by
  have hraise : ∀ {t}, Keeps False (s.raise .reservedBits) t → t.status = (s.raise .reservedBits).status →
      Keeps clears s t := fun hk hs => { hk with status := .inr (.inl ⟨_, hs⟩) }
  rw [rejectReserved]
  split
  · next n hn =>
    obtain ⟨c, p, heq, -⟩ := discardFrom_frame cw n (s.raise .reservedBits)
    exact hraise (discardFrom_keeps _ _ (cwPayload_lt hn) _) (by rw [heq])
  · obtain ⟨c, p, heq, -⟩ := discardThroughNullFrom_frame cw s.cmd (s.raise .reservedBits)
    exact hraise (discardThroughNullFrom_keeps ..) (by rw [heq])

/-- A whole header: its command or its rejection. -/
theorem runWord_keeps {cw : CmdWord} {s t : State} (h : runWord cw s = .next t) :
    Keeps (decodeWord cw = .instr .clrErr) s t := by
  unfold runWord at h
  split at h
  · next i hi => exact (exec_keeps h).weaken fun hc => hi.trans (congrArg _ hc)
  · cases h; exact rejectIllegal_keeps ..
  · cases h; exact rejectReserved_keeps ..

/-- A command that goes on, from a packet boundary; one stopped at a port does nothing (R232). -/
theorem resumeExec_keeps (clears : Prop) (cw : CmdWord) {p : Progress} (s : State) (hp : p ≠ .port)
    (hok : progressOk p = true) : Keeps clears (s.setParser .idle) (resumeExec cw p s) := by
  cases p with
  | loadBitmap k => exact loadBitmapFrom_keeps ..
  | drawString => exact drawStringFrom_keeps ..
  | eeWriteStr a left stopped => exact eeWriteStrFrom_keeps _ _ (of_decide_eq_true hok).2 ..
  | eeReadStr a => exact eeReadStrFrom_keeps ..
  | discard left => exact discardFrom_keeps _ _ (of_decide_eq_true hok).2 _
  | discardThroughNull => exact discardThroughNullFrom_keeps ..
  | port => exact absurd rfl hp

/-! ### One step -/

/-- The header of a CLRERR completes in the next step. -/
def clrErrArrives (s : State) : Prop :=
  ∃ got h rest, headerArrives s got h rest ∧ decodeWord (wordOfBytes (got ++ h)) = .instr .clrErr

/-- A parser value between two commands or in a header. -/
def betweenCommands : Parser → Prop
  | .idle => True
  | .header _ => True
  | .exec _ _ => False

theorem betweenCommands_headerSoFar (bs : List Byte) : betweenCommands (headerSoFar bs) := by
  cases bs <;> trivial

theorem atPort_of_betweenCommands {s : State} (h : betweenCommands s.parser) : s.atPort = false := by
  unfold State.atPort
  cases hp : s.parser with
  | idle => rfl
  | header got => rfl
  | exec cw p => rw [hp] at h; exact h.elim

/-- Every step serves RESET, or finds the FBC stopped at a port and does nothing, or takes bytes of the command
stream, puts the parser between two commands, and keeps what is kept. -/
theorem step_keeps {s t : State} (h : step s = .next t) :
    (s.resetIn = true ∧ t = s.takeReset) ∨ t = s ∨
    (s.atPort = false ∧ ∃ c p, betweenCommands p ∧ parserOk p = true ∧
      Keeps (clrErrArrives s) ((s.setCmd c).setParser p) t) := by
  obtain hreset | ⟨got, -, hp, hl, rfl⟩ | ⟨got, hd, rest, ha, hrun⟩ | ⟨cw, p, -, hp, hok, rfl⟩ := step_next_cases h
  · exact .inl hreset
  · refine .inr (.inr ⟨atPort_of_betweenCommands (hp ▸ betweenCommands_headerSoFar got), _, _,
      betweenCommands_headerSoFar _, parserOk_headerSoFar ?_, .refl ..⟩)
    rw [List.length_append]; omega
  · obtain ⟨-, hp, -⟩ := id ha
    exact .inr (.inr ⟨atPort_of_betweenCommands (hp ▸ betweenCommands_headerSoFar got), rest, .idle, trivial, rfl,
      (runWord_keeps hrun).weaken fun hc => ⟨got, hd, rest, ha, hc⟩⟩)
  · by_cases hport : p = .port
    · subst hport; exact .inr (.inl rfl)
    · refine .inr (.inr ⟨?_, s.cmd, .idle, trivial, rfl, resumeExec_keeps _ cw s hport hok⟩)
      cases p <;> simp_all [State.atPort]

/-! ## The invariant (R23, R27, R28, R33, R287) -/

theorem inv_takeReset {s : State} (hs : s.Inv) : s.takeReset.Inv where
  col := by simp
  row := by simp
  status := by simp
  parser := by simp [parserOk]
  memory := by simpa using memory_wf_eeAfterReset hs.memory
  bus _ := by simp
  select _ := by simp
  mark := by simpa using hs.mark

theorem inv_setCmd_setParser {s : State} (hs : s.Inv) (hp : s.atPort = false) (c : List Byte) {p : Parser}
    (hok : parserOk p = true) : ((s.setCmd c).setParser p).Inv where
  col := hs.col
  row := hs.row
  status := hs.status
  parser := hok
  memory := hs.memory
  bus _ := hs.bus hp
  select _ := hs.select hp
  mark := hs.mark

/-- Settles O13, along the three kinds of step: RESET meets the invariant, a stopped FBC does nothing, and every
other step starts at no port and keeps it. -/
theorem stepKeepsInvariant : Obligations.StepKeepsInvariant := by
  intro s t hs h
  obtain ⟨-, rfl⟩ | rfl | ⟨hport, c, p, hp, hok, hk⟩ := step_keeps h
  · exact inv_takeReset hs
  · exact hs
  · exact hk.inv (inv_setCmd_setParser hs hport c hok) (atPort_of_betweenCommands hp)

/-- Settles O16: commands and steps keep the cursor's ranges, RESET puts it at the origin. -/
theorem cursorStaysInRange : Obligations.CursorStaysInRange := by
  intro s t hc hr
  refine ⟨fun i h => (exec_keeps h).cursor hc hr, fun h => ?_⟩
  obtain ⟨-, rfl⟩ | rfl | ⟨-, c, p, -, -, hk⟩ := step_keeps h
  · simp
  · exact ⟨hc, hr⟩
  · exact hk.cursor hc hr

/-- Settles O18, along the three kinds of step. -/
theorem tablesAndFaultMarkLast : Obligations.TablesAndFaultMarkLast := by
  intro s t h
  obtain ⟨-, rfl⟩ | rfl | ⟨-, c, p, -, -, hk⟩ := step_keeps h
  · simp
  · exact ⟨rfl, rfl, rfl, id⟩
  · exact ⟨hk.params, hk.device, hk.busEnabled, fun hm => hk.mark.elim (fun heq => heq.trans hm) And.left⟩

/-- Settles O19: an error raised while `ERR` is 1 is not recorded, and only CLRERR clears `STATUS`. -/
theorem firstErrorIsKept : Obligations.FirstErrorIsKept := by
  intro s t herr hr h
  obtain ⟨hreset, -⟩ | rfl | ⟨-, c, p, -, -, hk⟩ := step_keeps h
  · rw [hr] at hreset; cases hreset
  · exact .inl rfl
  · obtain heq | ⟨e, heq⟩ | ⟨harrives, heq⟩ := hk.status
    · exact .inl heq
    · exact .inl (heq.trans (statusRaise_of_err herr))
    · exact .inr ⟨heq, harrives⟩

/-! ## How a command that waits for bytes goes on (R26, R27, R60) -/

/-- `t` is where a command stood when the bytes there were ran out, `u` where it would stand if `bs` had been there
too: if `t` waits for bytes, the step that finds `bs` answers `u`. -/
def Resumes (bs : List Byte) (t u : State) : Prop :=
  waitsForBytes t.parser = true → step (t.hostSend bs) = .next u

theorem Resumes.of_not_waiting {bs : List Byte} {t u : State} (h : waitsForBytes t.parser = false) :
    Resumes bs t u := fun hw => by rw [h] at hw; cases hw

/-- A command that has held goes on from there when bytes come. -/
theorem Resumes.of_hold {bs : List Byte} {cw : CmdWord} {p : Progress} {s u : State} (hr : s.resetIn = false)
    (hok : progressOk p = true) (hu : resumeExec cw p ((s.hold cw p).hostSend bs) = u) :
    Resumes bs (s.hold cw p) u := fun _ => by
  rw [step_of_exec (s := (s.hold cw p).hostSend bs) (cw := cw) hr rfl hok, hu]

theorem hostSend_setCmd (bs c : List Byte) (s : State) : (s.hostSend bs).setCmd (c ++ bs) = (s.setCmd c).hostSend bs :=
  rfl

/-- Holding at a packet boundary and going on is as if nothing had been. -/
theorem hold_hostSend_setParser {s : State} (hp : s.parser = .idle) (cw : CmdWord) (p : Progress) (bs : List Byte) :
    ((s.hold cw p).hostSend bs).setParser .idle = s.hostSend bs := by
  rw [← hp]; rfl

/-! ### The loops, an equation for each state of the command stream -/

theorem loadBitmapFrom_of_nil {cw : CmdWord} {left : Nat} {s : State} (hc : s.cmd = []) :
    loadBitmapFrom cw (left + 1) s = s.hold cw (.loadBitmap (504 - (left + 1))) := by
  rw [loadBitmapFrom, hc]

theorem loadBitmapFrom_of_cons {cw : CmdWord} {left : Nat} {s : State} {b : Byte} {rest : List Byte}
    (hc : s.cmd = b :: rest) :
    loadBitmapFrom cw (left + 1) s =
      loadBitmapFrom cw left ((s.setCmd rest).setVram (vramWrite (504 - (left + 1)) b s.vram)) := by
  rw [loadBitmapFrom, hc]

theorem discardFrom_of_nil {cw : CmdWord} {left : Nat} {s : State} (hc : s.cmd = []) :
    discardFrom cw (left + 1) s = s.hold cw (.discard (left + 1)) := by
  rw [discardFrom, hc]

theorem discardFrom_of_cons {cw : CmdWord} {left : Nat} {s : State} {b : Byte} {rest : List Byte}
    (hc : s.cmd = b :: rest) : discardFrom cw (left + 1) s = discardFrom cw left (s.setCmd rest) := by
  rw [discardFrom, hc]

theorem eeWriteStrFrom_of_nil {cw : CmdWord} {left : Nat} {a : Addr} {stopped : Bool} {s : State}
    (hc : s.cmd = []) :
    eeWriteStrFrom cw (left + 1) a stopped s = s.hold cw (.eeWriteStr a (left + 1) stopped) := by
  rw [eeWriteStrFrom, hc]

/-- A payload byte after the text or the 0x00 that ends it is consumed and not written (R228). -/
theorem eeWriteStrFrom_of_stopped {cw : CmdWord} {left : Nat} {a : Addr} {stopped : Bool} {s : State} {b : Byte}
    {rest : List Byte} (hc : s.cmd = b :: rest) (hs : stopped = true ∨ b = 0x00#8) :
    eeWriteStrFrom cw (left + 1) a stopped s = eeWriteStrFrom cw left a true (s.setCmd rest) := by
  rw [eeWriteStrFrom, hc]
  obtain rfl | rfl := hs <;> simp

/-- A byte of the text whose transaction completes. -/
theorem eeWriteStrFrom_of_written {cw : CmdWord} {left : Nat} {a : Addr} {s t : State} {b : Byte} {rest : List Byte}
    (hc : s.cmd = b :: rest) (hb : b ≠ 0x00#8) (hw : (s.setCmd rest).eeWrite a b = (t, true)) :
    eeWriteStrFrom cw (left + 1) a false s = eeWriteStrFrom cw left (nextAddr a) false t := by
  rw [eeWriteStrFrom, hc]
  simp [hb, hw]

/-- A byte of the text whose transaction does not complete. -/
theorem eeWriteStrFrom_of_cut {cw : CmdWord} {left : Nat} {a : Addr} {s t : State} {b : Byte} {rest : List Byte}
    (hc : s.cmd = b :: rest) (hb : b ≠ 0x00#8) (hw : (s.setCmd rest).eeWrite a b = (t, false)) :
    eeWriteStrFrom cw (left + 1) a false s = t.hold cw .port := by
  rw [eeWriteStrFrom, hc]
  simp [hb, hw]

/-! ### What does not look at the command stream -/

theorem advanceCursor_setCmd (w : Nat) (c : List Byte) (s : State) :
    (s.setCmd c).advanceCursor w = (s.advanceCursor w).setCmd c := by
  unfold State.advanceCursor
  rw [State.setCmd_curCol]
  split <;> rfl

theorem cursorBack_setCmd (c : List Byte) (s : State) : (s.setCmd c).cursorBack = s.cursorBack.setCmd c := by
  unfold State.cursorBack
  rw [State.setCmd_curCol]
  split <;> rfl

theorem putColsAtCursor_setCmd (bs c : List Byte) (s : State) :
    (s.setCmd c).putColsAtCursor bs = (s.putColsAtCursor bs).setCmd c := rfl

/-- A character does not look at the command stream. -/
theorem charStep_setCmd (code : Byte) (c : List Byte) (s : State) :
    charStep code (s.setCmd c) = (charStep code s).setCmd c := by
  unfold charStep
  rw [cursorBack_setCmd, putColsAtCursor_setCmd, putColsAtCursor_setCmd, advanceCursor_setCmd]
  split
  · rfl
  · split
    · rfl
    · split <;> rfl

/-- DRAWSTRING over a list of bytes sets the command stream and does not look at it. -/
theorem drawStringFrom_setCmd (cw : CmdWord) (l c : List Byte) (s : State) :
    drawStringFrom cw l (s.setCmd c) = drawStringFrom cw l s := by
  induction l generalizing s with
  | nil => rfl
  | cons b l ih => rw [drawStringFrom, drawStringFrom, charStep_setCmd, ih]; rfl

theorem discardThroughNullFrom_setCmd (cw : CmdWord) (l c : List Byte) (s : State) :
    discardThroughNullFrom cw l (s.setCmd c) = discardThroughNullFrom cw l s := by
  induction l with
  | nil => rfl
  | cons b l ih => rw [discardThroughNullFrom, discardThroughNullFrom, ih]; rfl

theorem driveEnabled_hostSend (port : Port) (es : List PortEvent) (bs : List Byte) (s : State) :
    (s.hostSend bs).driveEnabled port es =
      ((s.driveEnabled port es).1.hostSend bs, (s.driveEnabled port es).2) := by
  unfold State.driveEnabled
  rw [State.hostSend_portPlan]
  split
  · rfl
  · rfl
  · split <;> rfl
  · split <;> rfl

theorem driveDisabled_hostSend (es : List PortEvent) (bs : List Byte) (s : State) :
    (s.hostSend bs).driveDisabled es = ((s.driveDisabled es).1.hostSend bs, (s.driveDisabled es).2) := by
  unfold State.driveDisabled
  rw [State.hostSend_portPlan]
  split <;> rfl

theorem drive_hostSend (port : Port) (es : List PortEvent) (bs : List Byte) (s : State) :
    (s.hostSend bs).drive port es = ((s.drive port es).1.hostSend bs, (s.drive port es).2) := by
  unfold State.drive
  rw [State.hostSend_busEnabled]
  split
  · exact driveDisabled_hostSend es bs s
  · exact driveEnabled_hostSend _ es bs s
  · exact driveEnabled_hostSend _ es bs s

/-- A write transaction does not look at the command stream. -/
theorem eeWrite_hostSend (a : Addr) (d : Byte) (bs : List Byte) (s : State) :
    (s.hostSend bs).eeWrite a d = ((s.eeWrite a d).1.hostSend bs, (s.eeWrite a d).2) := by
  rw [State.eeWrite, State.hostSend_params, drive_hostSend, State.eeWrite]
  obtain ⟨t, r⟩ := s.drive .eepromBus (writeEvents s.params a d)
  cases r <;> rfl

/-! ### Going on is running on -/

theorem loadBitmapFrom_resumes {cw : CmdWord} {left : Nat} {s : State} (hp : s.parser = .idle)
    (hr : s.resetIn = false) (hl : left ≤ 504) (bs : List Byte) :
    Resumes bs (loadBitmapFrom cw left s) (loadBitmapFrom cw left (s.hostSend bs)) := by
  induction left generalizing s with
  | zero => exact .of_not_waiting (by rw [loadBitmapFrom, hp]; rfl)
  | succ left ih =>
    cases hc : s.cmd with
    | nil =>
      rw [loadBitmapFrom_of_nil hc]
      refine .of_hold hr (decide_eq_true (by omega)) ?_
      rw [resumeExec, hold_hostSend_setParser hp, Nat.sub_sub_self hl]
    | cons b rest =>
      have hc' : (s.hostSend bs).cmd = b :: (rest ++ bs) := by rw [State.hostSend_cmd, hc]; rfl
      rw [loadBitmapFrom_of_cons hc, loadBitmapFrom_of_cons hc']
      exact ih hp hr (by omega)

theorem discardFrom_resumes {cw : CmdWord} {left : Nat} {s : State} (hp : s.parser = .idle)
    (hr : s.resetIn = false) (hl : left < 65536) (bs : List Byte) :
    Resumes bs (discardFrom cw left s) (discardFrom cw left (s.hostSend bs)) := by
  induction left generalizing s with
  | zero => exact .of_not_waiting (by rw [discardFrom, hp]; rfl)
  | succ left ih =>
    cases hc : s.cmd with
    | nil =>
      rw [discardFrom_of_nil hc]
      refine .of_hold hr (decide_eq_true (by omega)) ?_
      rw [resumeExec, hold_hostSend_setParser hp]
    | cons b rest =>
      have hc' : (s.hostSend bs).cmd = b :: (rest ++ bs) := by rw [State.hostSend_cmd, hc]; rfl
      rw [discardFrom_of_cons hc, discardFrom_of_cons hc']
      exact ih hp hr (by omega)

theorem drawStringFrom_resumes {cw : CmdWord} (l : List Byte) {s : State} (hp : s.parser = .idle)
    (hr : s.resetIn = false) (bs : List Byte) :
    Resumes bs (drawStringFrom cw l s) (drawStringFrom cw (l ++ bs) s) := by
  induction l generalizing s with
  | nil =>
    refine .of_hold hr rfl ?_
    rw [resumeExec, hold_hostSend_setParser (s := s.setCmd []) hp]
    exact drawStringFrom_setCmd cw bs bs s
  | cons b l ih =>
    have hf := charStep_frame b s
    rw [List.cons_append, drawStringFrom, drawStringFrom]
    split
    · exact .of_not_waiting (by rw [State.setCmd_parser, hp]; rfl)
    · exact ih (by rw [hf]; exact hp) (by rw [hf]; exact hr)

theorem discardThroughNullFrom_resumes {cw : CmdWord} (l : List Byte) {s : State} (hp : s.parser = .idle)
    (hr : s.resetIn = false) (bs : List Byte) :
    Resumes bs (discardThroughNullFrom cw l s) (discardThroughNullFrom cw (l ++ bs) s) := by
  induction l with
  | nil =>
    refine .of_hold hr rfl ?_
    rw [resumeExec, hold_hostSend_setParser (s := s.setCmd []) hp]
    exact discardThroughNullFrom_setCmd cw bs bs s
  | cons b l ih =>
    rw [List.cons_append, discardThroughNullFrom, discardThroughNullFrom]
    split
    · exact .of_not_waiting (by rw [State.setCmd_parser, hp]; rfl)
    · exact ih

/-- No EEPROM command waits for bytes but at a progress that is a wait for them. -/
theorem not_waiting_of_eepromFrame {cw : CmdWord} {w : Progress → Prop} {s t : State} (hf : EepromFrame cw w s t)
    (hp : s.parser = .idle) (hw : ∀ p, w p → waitsForBytes (.exec cw p) = false) : waitsForBytes t.parser = false := by
  obtain ⟨heq, -, -⟩ | heq | ⟨p, hwp, heq, -, -⟩ := hf.stops <;> rw [heq]
  · rw [hp]; rfl
  · rfl
  · exact hw p hwp

theorem eeWriteStrFrom_resumes {cw : CmdWord} {left : Nat} {a : Addr} {stopped : Bool} {s : State}
    (hp : s.parser = .idle) (hr : s.resetIn = false) (hl : left < 65536) (bs : List Byte) :
    Resumes bs (eeWriteStrFrom cw left a stopped s) (eeWriteStrFrom cw left a stopped (s.hostSend bs)) := by
  induction left generalizing a stopped s with
  | zero =>
    exact .of_not_waiting (not_waiting_of_eepromFrame (eeWriteLast_frame cw (fun _ => False) a 0x00#8 s) hp nofun)
  | succ left ih =>
    cases hc : s.cmd with
    | nil =>
      rw [eeWriteStrFrom_of_nil hc]
      refine .of_hold hr (decide_eq_true (by omega)) ?_
      rw [resumeExec, hold_hostSend_setParser hp]
    | cons b rest =>
      have hc' : (s.hostSend bs).cmd = b :: (rest ++ bs) := by rw [State.hostSend_cmd, hc]; rfl
      by_cases hs : stopped = true ∨ b = 0x00#8
      · rw [eeWriteStrFrom_of_stopped hc hs, eeWriteStrFrom_of_stopped hc' hs]
        exact ih hp hr (by omega)
      · obtain ⟨hstop, hb⟩ := not_or.mp hs
        obtain rfl := Bool.eq_false_of_not_eq_true hstop
        have hsend := eeWrite_hostSend a b bs (s.setCmd rest)
        obtain ⟨t, hw, htp, -, htr, -⟩ | ⟨t, hw, -⟩ := eeWrite_frame cw (fun _ => False) a b (s.setCmd rest)
        · rw [hw, ← hostSend_setCmd] at hsend
          rw [eeWriteStrFrom_of_written hc hb hw, eeWriteStrFrom_of_written hc' hb hsend]
          exact ih (htp.trans hp) (htr.trans hr) (by omega)
        · rw [eeWriteStrFrom_of_cut hc hb hw]
          exact .of_not_waiting rfl

/-- A command runs on when its bytes come in pieces. -/
theorem exec_resumes {i : Instr} {s t : State} (hp : s.parser = .idle) (hr : s.resetIn = false) (bs : List Byte)
    (h : exec i s = .next t) (hw : waitsForBytes t.parser = true) :
    step (t.hostSend bs) = exec i (s.hostSend bs) := by
  have hdone : waitsForBytes t.parser = false → step (t.hostSend bs) = exec i (s.hostSend bs) :=
    fun hn => by rw [hn] at hw; cases hw
  have hfree : takesPayload i = false → usesBus i = false → usesPanel i = false →
      step (t.hostSend bs) = exec i (s.hostSend bs) := fun h1 h2 h3 =>
    hdone (by rw [(exec_frame h).parser h1 h2 h3, hp]; rfl)
  cases i with
  | loadBitmap => cases h; exact loadBitmapFrom_resumes hp hr (Nat.le_refl _) bs hw
  | drawString =>
    cases h
    refine (drawStringFrom_resumes s.cmd hp hr bs hw).trans (congrArg _ ?_)
    exact (drawStringFrom_setCmd _ _ _ s).symm
  | eeWriteStr a len => cases h; exact eeWriteStrFrom_resumes hp hr len.isLt bs hw
  | flush =>
    obtain ⟨ps, pl, ri, pn, cs, p, heq, hpar⟩ := execFlush_writes s
    cases heq.symm.trans h
    obtain ⟨rfl, -⟩ | rfl := hpar
    · exact hdone (by rw [hp]; rfl)
    · exact hdone rfl
  | eeRead a =>
    obtain ⟨u, heq, -, -, hf⟩ := execEeRead_frame a s
    cases heq.symm.trans h
    exact hdone (not_waiting_of_eepromFrame hf hp nofun)
  | eeWrite a d =>
    cases h
    exact hdone (not_waiting_of_eepromFrame (eeWriteLast_frame _ (fun _ => False) a d s) hp nofun)
  | eeReadStr a =>
    cases h
    exact hdone (not_waiting_of_eepromFrame (eeReadStrFrom_frame ..) hp (by rintro _ ⟨a', rfl⟩; rfl))
  | eeZero first limit =>
    cases h
    exact hdone (not_waiting_of_eepromFrame (eeZeroFrom_frame ..) hp nofun)
  | _ => exact hfree rfl rfl rfl

/-- A rejected packet is discarded on when its bytes come in pieces. -/
theorem rejectReserved_resumes {cw : CmdWord} {s : State} (hp : s.parser = .idle) (hr : s.resetIn = false)
    (bs : List Byte) : Resumes bs (rejectReserved cw s) (rejectReserved cw (s.hostSend bs)) := by
  unfold rejectReserved
  split
  · next n hn => exact discardFrom_resumes (s := s.raise .reservedBits) hp hr (cwPayload_lt hn) bs
  · have hres := discardThroughNullFrom_resumes (cw := cw) s.cmd (s := s.raise .reservedBits) hp hr bs
    have hset := discardThroughNullFrom_setCmd cw (s.cmd ++ bs) (s.cmd ++ bs) (s.raise .reservedBits)
    rw [← hset] at hres
    exact hres

/-- A packet whose header is there runs on when its payload comes in pieces. -/
theorem runWord_resumes {cw : CmdWord} {s t : State} (hp : s.parser = .idle) (hr : s.resetIn = false)
    (bs : List Byte) (h : runWord cw s = .next t) (hw : waitsForBytes t.parser = true) :
    step (t.hostSend bs) = runWord cw (s.hostSend bs) := by
  unfold runWord at h ⊢
  cases hd : decodeWord cw with
  | instr i => rw [hd] at h; exact exec_resumes hp hr bs h hw
  | illegalOpcode =>
    rw [hd] at h
    cases h
    rw [rejectIllegal, State.raise_parser, hp] at hw
    cases hw
  | reservedBits => rw [hd] at h; cases h; exact rejectReserved_resumes hp hr bs hw

/-- A command that held once may hold again. -/
theorem resumeExec_resumes {cw : CmdWord} {p : Progress} {s : State} (hr : s.resetIn = false)
    (hp : s.parser = .exec cw p) (hok : progressOk p = true) (bs : List Byte) :
    Resumes bs (resumeExec cw p s) (resumeExec cw p (s.hostSend bs)) := by
  cases p with
  | loadBitmap k => exact loadBitmapFrom_resumes (s := s.setParser .idle) rfl hr (Nat.sub_le ..) bs
  | drawString =>
    have hres := drawStringFrom_resumes (cw := cw) s.cmd (s := s.setParser .idle) rfl hr bs
    rw [← drawStringFrom_setCmd cw (s.cmd ++ bs) (s.cmd ++ bs)] at hres
    exact hres
  | eeWriteStr a left stopped =>
    exact eeWriteStrFrom_resumes (s := s.setParser .idle) rfl hr (of_decide_eq_true hok).2 bs
  | eeReadStr a =>
    exact .of_not_waiting (not_waiting_of_eepromFrame (eeReadStrFrom_frame cw readStrBurst a (s.setParser .idle)) rfl
      (by rintro _ ⟨a', rfl⟩; rfl))
  | discard left => exact discardFrom_resumes (s := s.setParser .idle) rfl hr (of_decide_eq_true hok).2 bs
  | discardThroughNull =>
    have hres := discardThroughNullFrom_resumes (cw := cw) s.cmd (s := s.setParser .idle) rfl hr bs
    rw [← discardThroughNullFrom_setCmd cw (s.cmd ++ bs) (s.cmd ++ bs)] at hres
    exact hres
  | port => exact .of_not_waiting (by rw [resumeExec, hp]; rfl)

/-- Settles O11: the bytes ran out in the header, or after it in the payload, or in the payload of a command that
had held before. -/
theorem byteArrivalDoesNotMatter : Obligations.ByteArrivalDoesNotMatter := by
  intro s t bs hr _ h hw
  obtain ⟨hreset, -⟩ | ⟨got, -, hp, hl, rfl⟩ | ⟨got, hd, rest, ha, hrun⟩ | ⟨cw, p, -, hp, hok, rfl⟩ :=
    step_next_cases h
  · rw [hr] at hreset; cases hreset
  · have hlen : (got ++ s.cmd).length ≤ 7 := by rw [List.length_append]; omega
    rw [step_of_headerSoFar (got := got ++ s.cmd) (by simpa using hr) (by simp) hlen,
      step_of_headerSoFar (s := s.hostSend bs) (by simpa using hr) (by simpa using hp) (by omega),
      fetchAndRun, fetchAndRun, fetch_append hl]
  · obtain ⟨-, hp, hl, hlen, hc⟩ := id ha
    have ha' : headerArrives (s.hostSend bs) got hd (rest ++ bs) :=
      ⟨hr, hp, hl, hlen, by rw [State.hostSend_cmd, hc, List.append_assoc]⟩
    rw [step_of_headerArrives ha']
    exact runWord_resumes (s := (s.setCmd rest).setParser .idle) rfl hr bs hrun hw
  · rw [step_of_exec (s := s.hostSend bs) (by simpa using hr) (by simpa using hp) hok]
    exact resumeExec_resumes hr hp hok bs hw

end Sys2Proof.Proofs
end

section
/-!
Proofs of the memory family: a pixel write bit by bit, what a run of payload bytes stores, and how a command whose
payload is short waits.
-/

namespace Sys2Proof.Proofs

open Sys2Proof.Machine Sys2Proof.Claims

/-! ## A pixel write, bit by bit (R52, R53) -/

/-- The index of a pixel's byte, as R52 writes it. -/
theorem natCast_pixIndex {x y : Int} (h : onScreen x y = true) : (pixIndex x y : Int) = y / 8 * 84 + x := by
  rw [onScreen_iff] at h
  simp only [pixIndex]
  omega

theorem natCast_pixBit {y : Int} (h : 0 ≤ y) : (pixBit y : Int) = y % 8 := by
  simp only [pixBit]
  omega

/-- The pixel's byte after the write: the bit of the pixel or-ed in or masked out (R53). -/
theorem vramRead_pix_same {x y : Int} (h : onScreen x y = true) (on : Bool) (v : Vram) :
    vramRead (pix x y on v) (pixIndex x y) =
      if on then vramRead v (pixIndex x y) ||| 1#8 <<< pixBit y
      else vramRead v (pixIndex x y) &&& ~~~(1#8 <<< pixBit y) := by
  rw [pix, if_pos h]
  exact vramRead_vramWrite_same v _ _ (pixIndex_lt h)

/-- In its byte the write sets the pixel's bit and keeps the others. -/
theorem getLsbD_vramRead_pix {x y : Int} (h : onScreen x y = true) (on : Bool) (v : Vram) {b : Nat} (hb : b < 8) :
    (vramRead (pix x y on v) (pixIndex x y)).getLsbD b =
      if b = pixBit y then on else (vramRead v (pixIndex x y)).getLsbD b := by
  have hmask : (1#8 <<< pixBit y).getLsbD b = decide (b = pixBit y) := by
    rw [← BitVec.twoPow_eq, BitVec.getLsbD_twoPow]
    simp [pixBit_lt, eq_comm]
  rw [vramRead_pix_same h]
  cases on with
  | true =>
    simp only [if_true, BitVec.getLsbD_or, hmask]
    by_cases hbit : b = pixBit y <;> simp [hbit]
  | false =>
    simp only [Bool.false_eq_true, if_false, BitVec.getLsbD_and, BitVec.getLsbD_not, hmask, hb]
    by_cases hbit : b = pixBit y <;> simp [hbit]

theorem vramRead_pix_other {x y : Int} {i : Nat} (hi : i ≠ pixIndex x y) (on : Bool) (v : Vram) :
    vramRead (pix x y on v) i = vramRead v i := by
  rw [pix]
  split
  · exact vramRead_vramWrite_other v hi _
  · rfl

/-- Settles O24: `pixIndex` and `pixBit` are the byte and the bit R53 names. -/
theorem pixelWriteChangesOneBit : Obligations.PixelWriteChangesOneBit := by
  refine fun x y on v => ⟨fun hxy => ?_, fun hxy => pix_off (by simpa [onScreen] using hxy) on v⟩
  have hon : onScreen x y = true := onScreen_iff.mpr hxy
  obtain ⟨-, -, hy, -⟩ := hxy
  have hindex := natCast_pixIndex hon
  have hbit := natCast_pixBit hy
  refine ⟨fun b hb => ?_, fun i hi => vramRead_pix_other (by omega) on v⟩
  rw [← hindex, ← hbit, Int.toNat_natCast, getLsbD_vramRead_pix hon on v hb]
  simp only [Nat.cast_inj]

/-! ## A wait for bytes that do not come (R60) -/

/-- A command that waits for a byte goes on waiting when a step finds none. -/
theorem step_of_waiting {t : State} {cw : CmdWord} {p : Progress} (hr : t.resetIn = false)
    (hp : t.parser = .exec cw p) (hok : progressOk p = true) (hw : waitsForBytes (.exec cw p) = true)
    (hc : t.cmd = []) : step t = .next t := by
  have hidle : (t.setParser .idle).cmd = [] := hc
  have hsame : (t.setParser .idle).hold cw p = t := by
    rw [State.hold, ← hp]; rfl
  have hnull : ((t.setParser .idle).setCmd []).hold cw p = t := by
    rw [← hidle]; exact hsame
  rw [step_of_exec hr hp hok]
  congr 1
  cases p with
  | loadBitmap k =>
    have hk : k < 504 := of_decide_eq_true hok
    have hleft : 504 - k = (503 - k) + 1 := by omega
    have hback : 504 - ((503 - k) + 1) = k := by omega
    rw [resumeExec, hleft, loadBitmapFrom_of_nil hidle, hback, hsame]
  | drawString => rw [resumeExec, hc]; exact hnull
  | eeWriteStr a left stopped =>
    obtain ⟨n, rfl⟩ := Nat.exists_eq_add_one.mpr (of_decide_eq_true hok : 0 < left ∧ left < 65536).1
    rw [resumeExec, eeWriteStrFrom_of_nil hidle, hsame]
  | discard left =>
    obtain ⟨n, rfl⟩ := Nat.exists_eq_add_one.mpr (of_decide_eq_true hok : 0 < left ∧ left < 65536).1
    rw [resumeExec, discardFrom_of_nil hidle, hsame]
  | discardThroughNull => rw [resumeExec, hc]; exact hnull
  | eeReadStr | port => cases hw

/-! ## LOADBITMAP: a run of payload bytes (R114) -/

/-- The framebuffer after the bytes of a list were written from index `i` on. -/
def vramWriteFrom : Nat → List Byte → Vram → Vram
  | _, [], v => v
  | i, b :: bs, v => vramWriteFrom (i + 1) bs (vramWrite i b v)

theorem vramRead_vramWriteFrom_outside {i k : Nat} {bs : List Byte} (hk : k < i ∨ i + bs.length ≤ k) (v : Vram) :
    vramRead (vramWriteFrom i bs v) k = vramRead v k := by
  induction bs generalizing i v with
  | nil => rfl
  | cons b bs ih =>
    rw [List.length_cons] at hk
    rw [vramWriteFrom, ih (by omega), vramRead_vramWrite_other v (by omega)]

theorem vramRead_vramWriteFrom {i j : Nat} {bs : List Byte} {b : Byte} (hb : bs[j]? = some b)
    (hi : i + bs.length ≤ 504) (v : Vram) : vramRead (vramWriteFrom i bs v) (i + j) = b := by
  induction bs generalizing i j v with
  | nil => cases hb
  | cons c bs ih =>
    rw [List.length_cons] at hi
    rw [vramWriteFrom]
    cases j with
    | zero =>
      obtain rfl : c = b := Option.some.inj hb
      rw [vramRead_vramWriteFrom_outside (by omega)]
      exact vramRead_vramWrite_same v i c (by omega)
    | succ j =>
      have hplace : i + (j + 1) = (i + 1) + j := by omega
      rw [hplace]
      exact ih hb (by omega) _

/-- LOADBITMAP takes the payload bytes `bs`, of which the first is byte `i` of the bitmap. -/
theorem loadBitmapFrom_payload {cw : CmdWord} {i left : Nat} {bs rest : List Byte} {s : State}
    (hi : i + (bs.length + left) = 504) (hc : s.cmd = bs ++ rest) :
    loadBitmapFrom cw (bs.length + left) s =
      loadBitmapFrom cw left ((s.setCmd rest).setVram (vramWriteFrom i bs s.vram)) := by
  induction bs generalizing i s with
  | nil =>
    rw [List.nil_append] at hc
    rw [List.length_nil, Nat.zero_add, ← hc]
    rfl
  | cons b bs ih =>
    rw [List.length_cons] at hi ⊢
    have hleft : bs.length + 1 + left = bs.length + left + 1 := by omega
    have hindex : 504 - (bs.length + left + 1) = i := by omega
    rw [hleft, loadBitmapFrom_of_cons hc, hindex, ih (i := i + 1) (by omega) rfl]
    rfl

/-- A LOADBITMAP with fewer than 504 payload bytes writes those and waits. -/
theorem exec_loadBitmap_short {s : State} (hl : s.cmd.length < 504) :
    exec .loadBitmap s = .next (((s.setCmd []).setVram (vramWriteFrom 0 s.cmd s.vram)).hold (encodeWord .loadBitmap)
      (.loadBitmap s.cmd.length)) := by
  obtain ⟨left, hleft⟩ := Nat.exists_eq_add_of_lt hl
  have hpos : 504 - (left + 1) = s.cmd.length := by omega
  have hrun := loadBitmapFrom_payload (cw := encodeWord .loadBitmap) (i := 0) (left := left + 1) (s := s)
    (bs := s.cmd) (rest := []) (by omega) (List.append_nil _).symm
  rw [loadBitmapFrom_of_nil rfl, hpos, ← Nat.add_assoc, ← hleft] at hrun
  exact congrArg Host.Outcome.next hrun

/-! ## DRAWSTRING: a run of characters (R184) -/

/-- The state after the characters of a list were drawn one after another. -/
def drawChars (cs : List Byte) (s : State) : State := cs.foldl (fun u c => charStep c u) s

/-- DRAWSTRING draws the characters before the first 0x00 one after another. -/
theorem drawStringFrom_append {cw : CmdWord} {cs : List Byte} (h0 : 0x00#8 ∉ cs) (rest : List Byte) (s : State) :
    drawStringFrom cw (cs ++ rest) s = drawStringFrom cw rest (drawChars cs s) := by
  induction cs generalizing s with
  | nil => rfl
  | cons c cs ih =>
    obtain ⟨hc, hcs⟩ := not_or.mp (mt List.mem_cons.mpr h0)
    rw [List.cons_append, drawStringFrom, if_neg (Ne.symm hc), ih hcs]
    rfl

/-- A DRAWSTRING without its 0x00 draws what is there and waits. -/
theorem exec_drawString_short {s : State} (h0 : 0x00#8 ∉ s.cmd) :
    exec .drawString s =
      .next (((drawChars s.cmd s).setCmd []).hold (encodeWord .drawString) .drawString) := by
  have hrun := drawStringFrom_append (cw := encodeWord .drawString) h0 [] s
  rw [List.append_nil] at hrun
  exact congrArg Host.Outcome.next hrun

/-! ## EEPROM: the bytes of a text written one after another (R223, R228) -/

theorem addrAfter_zero (a : Addr) : addrAfter a 0 = a := BitVec.add_zero a

theorem addrAfter_nextAddr (a : Addr) (k : Nat) : addrAfter (nextAddr a) k = addrAfter a (k + 1) := by
  simp only [addrAfter, nextAddr]
  bv_omega

/-- Going round the 2^16 addresses comes back to no address early. -/
theorem addrAfter_inj {a : Addr} {j k : Nat} (hj : j < 65536) (hk : k < 65536)
    (h : addrAfter a j = addrAfter a k) : j = k := by
  have hnat := congrArg BitVec.toNat (BitVec.add_right_inj a |>.mp h)
  simpa [Nat.mod_eq_of_lt hj, Nat.mod_eq_of_lt hk] using hnat

theorem selector_eq_selectorByte (p : Params) (a : Addr) : selector p a = selectorByte p a := by
  unfold selector selectorByte
  split
  · rw [if_neg (by omega)]; rfl
  · rw [if_pos (by omega)]; rfl

theorem writeEvents_eq_writeTrace (p : Params) (a : Addr) (d : Byte) : writeEvents p a d = writeTrace p a d := by
  rw [writeEvents, selector_eq_selectorByte]
  rfl

/-- The state after write transactions of the bytes of a list from address `a` on, on a bus that works. -/
def storeBytes : Addr → List Byte → State → State
  | _, [], s => s
  | a, b :: bs, s => storeBytes (nextAddr a) bs ((s.logPorts (writeEvents s.params a b)).eeStore a b)

/-- Write transactions change nothing but the record of the ports and the EEPROM's content. -/
theorem storeBytes_frame (a : Addr) (bs : List Byte) (s : State) :
    storeBytes a bs s = { s with ports := (storeBytes a bs s).ports, ee := (storeBytes a bs s).ee } := by
  induction bs generalizing a s with
  | nil => rfl
  | cons b bs ih => rw [storeBytes, ih]; rfl

/-- Write transactions do not look at the command stream. -/
theorem storeBytes_setCmd (a : Addr) (bs c : List Byte) (s : State) :
    storeBytes a bs (s.setCmd c) = (storeBytes a bs s).setCmd c := by
  induction bs generalizing a s with
  | nil => rfl
  | cons b bs ih => exact ih (nextAddr a) ((s.logPorts (writeEvents s.params a b)).eeStore a b)

theorem storeBytes_ports (a : Addr) (bs : List Byte) (s : State) :
    (storeBytes a bs s).ports =
      s.ports ++ bs.zipIdx.flatMap fun p => writeTrace s.params (addrAfter a p.2) p.1 := by
  induction bs generalizing a s with
  | nil => exact (List.append_nil _).symm
  | cons b bs ih =>
    rw [storeBytes, ih, List.zipIdx_cons', List.flatMap_cons, List.flatMap_map]
    simp [addrAfter_nextAddr, addrAfter_zero, writeEvents_eq_writeTrace]

/-- Addresses that are none of the run's keep their bytes. -/
theorem eeByte_storeBytes_outside {a b : Addr} {bs : List Byte} (hb : ∀ k, k < bs.length → b ≠ addrAfter a k)
    (s : State) : (storeBytes a bs s).eeByte b = s.eeByte b := by
  induction bs generalizing a s with
  | nil => rfl
  | cons c bs ih =>
    have hfirst : b ≠ a := addrAfter_zero a ▸ hb 0 (Nat.succ_pos _)
    have hrest : ∀ k, k < bs.length → b ≠ addrAfter (nextAddr a) k := fun k hk => by
      rw [addrAfter_nextAddr]; exact hb (k + 1) (Nat.succ_lt_succ hk)
    rw [storeBytes, ih hrest, eeByte_eeStore_other _ hfirst]
    rfl

/-- Byte `k` of a run of at most 2^16 bytes stands `k` places after the first. -/
theorem eeByte_storeBytes {a : Addr} {bs : List Byte} {s : State} {k : Nat} {b : Byte} (hl : bs.length ≤ 65536)
    (hm : Memory.wf s.params.eeErased s.ee = true) (hb : bs[k]? = some b) :
    (storeBytes a bs s).eeByte (addrAfter a k) = b := by
  induction bs generalizing a s k with
  | nil => cases hb
  | cons c bs ih =>
    rw [List.length_cons] at hl
    rw [storeBytes]
    cases k with
    | zero =>
      obtain rfl : c = b := Option.some.inj hb
      have hne : ∀ k, k < bs.length → addrAfter a 0 ≠ addrAfter (nextAddr a) k := fun k hk h => by
        rw [addrAfter_nextAddr] at h
        exact absurd (addrAfter_inj (by omega) (by omega) h) (by omega)
      rw [eeByte_storeBytes_outside hne, addrAfter_zero]
      exact eeByte_eeStore_same hm a c
    | succ k =>
      rw [← addrAfter_nextAddr]
      exact ih (by omega) (memory_wf_eeStore (s := s.logPorts _) hm a c) hb

theorem storesAt_storeBytes {a : Addr} {bs : List Byte} {s : State} (hl : bs.length ≤ 65536)
    (hm : Memory.wf s.params.eeErased s.ee = true) : storesAt a bs s (storeBytes a bs s) :=
  ⟨fun _ _ hb => eeByte_storeBytes hl hm hb, fun _ hb => eeByte_storeBytes_outside hb s⟩

/-! ## EE_WRITESTR: a run of payload bytes (R228) -/

/-- After the text the payload bytes are consumed and nothing is written. -/
theorem eeWriteStrFrom_payload_stopped {cw : CmdWord} {left : Nat} {a : Addr} {bs rest : List Byte} {s : State}
    (hc : s.cmd = bs ++ rest) :
    eeWriteStrFrom cw (bs.length + left) a true s = eeWriteStrFrom cw left a true (s.setCmd rest) := by
  induction bs generalizing s with
  | nil => rw [List.length_nil, Nat.zero_add, ← List.nil_append rest, ← hc]; rfl
  | cons b bs ih =>
    rw [List.length_cons, Nat.add_right_comm, eeWriteStrFrom_of_stopped hc (.inl rfl)]
    exact ih rfl

/-- EE_WRITESTR takes the payload bytes `bs` on a working bus: it stores those before the first 0x00 and consumes
all. -/
theorem eeWriteStrFrom_payload {cw : CmdWord} {left : Nat} {a : Addr} {bs rest : List Byte} {s : State}
    (hbus : busWorks s) (hc : s.cmd = bs ++ rest) :
    eeWriteStrFrom cw (bs.length + left) a false s =
      eeWriteStrFrom cw left (addrAfter a (bs.takeWhile (· ≠ 0x00#8)).length) (decide (0x00#8 ∈ bs))
        ((storeBytes a (bs.takeWhile (· ≠ 0x00#8)) s).setCmd rest) := by
  induction bs generalizing a s with
  | nil =>
    rw [List.nil_append] at hc
    rw [List.length_nil, Nat.zero_add, ← hc, List.takeWhile_nil, List.length_nil, addrAfter_zero]
    rfl
  | cons b bs ih =>
    rw [List.length_cons, Nat.add_right_comm]
    by_cases hb : b = 0x00#8
    · subst hb
      have hmem : decide (0x00#8 ∈ 0x00#8 :: bs) = true := decide_eq_true List.mem_cons_self
      rw [eeWriteStrFrom_of_stopped hc (.inr rfl), eeWriteStrFrom_payload_stopped rfl, hmem,
        List.takeWhile_cons_of_neg (by simp), List.length_nil, addrAfter_zero]
      rfl
    · obtain ⟨hen, hplan, hdev, hm⟩ := hbus
      have hwrite : (s.setCmd (bs ++ rest)).eeWrite a b =
          (((s.logPorts (writeEvents s.params a b)).eeStore a b).setCmd (bs ++ rest), true) :=
        eeWrite_done (s := s.setCmd (bs ++ rest)) hplan hen hdev a b
      have hbus' : busWorks (((s.logPorts (writeEvents s.params a b)).eeStore a b).setCmd (bs ++ rest)) :=
        ⟨hen, hplan, hdev, memory_wf_eeStore (s := s.logPorts (writeEvents s.params a b)) hm a b⟩
      have hmem : decide (0x00#8 ∈ b :: bs) = decide (0x00#8 ∈ bs) := by simp [Ne.symm hb]
      rw [eeWriteStrFrom_of_written hc hb hwrite, ih hbus' rfl, storeBytes_setCmd, addrAfter_nextAddr, hmem,
        List.takeWhile_cons_of_pos (by simpa using hb)]
      rfl

theorem length_textOf_le (len : Addr) (s : State) : (textOf len s).length ≤ len.toNat :=
  (List.takeWhile_sublist _).length_le.trans (List.length_take_le ..)

/-- An EE_WRITESTR with fewer payload bytes than `LEN` stores the text so far and waits. -/
theorem exec_eeWriteStr_short {s : State} {a len : Addr} (hbus : busWorks s) (hl : s.cmd.length < len.toNat) :
    exec (.eeWriteStr a len) s = .next (((storeBytes a (textOf len s) s).setCmd []).hold
      (encodeWord (.eeWriteStr a len))
      (.eeWriteStr (addrAfter a (textOf len s).length) (len.toNat - s.cmd.length) (decide (0x00#8 ∈ s.cmd)))) := by
  obtain ⟨left, hleft⟩ := Nat.exists_eq_add_of_lt hl
  have hwait : len.toNat - s.cmd.length = left + 1 := by omega
  have htext : textOf len s = s.cmd.takeWhile (· ≠ 0x00#8) := by
    rw [textOf, List.take_of_length_le (by omega)]
  have hrun := eeWriteStrFrom_payload (cw := encodeWord (.eeWriteStr a len)) (left := left + 1) (a := a)
    hbus (bs := s.cmd) (rest := []) (List.append_nil _).symm
  rw [eeWriteStrFrom_of_nil rfl, ← Nat.add_assoc, ← hleft, ← hwait, ← htext] at hrun
  exact congrArg Host.Outcome.next hrun

/-! ## Short payloads (R60, R315) -/

/-- Settles O10: each command takes the bytes there as its loop's equation says, and the wait it ends in is one that
a step without a byte leaves as it is. -/
theorem shortPayloadHolds : Obligations.ShortPayloadHolds := by
  refine fun s hr => ⟨fun hl => ?_, fun h0 => ?_, fun a len hbus hl => ?_⟩
  · have hexec := exec_loadBitmap_short hl
    refine ⟨_, hexec, rfl, rfl, fun k b hb => ?_, fun k hk => ?_, ?_⟩
    · have hbyte := vramRead_vramWriteFrom hb (i := 0) (by omega) s.vram
      rwa [Nat.zero_add] at hbyte
    · exact vramRead_vramWriteFrom_outside (.inr (by omega)) s.vram
    · exact step_of_waiting hr rfl (decide_eq_true hl) rfl rfl
  · have hexec := exec_drawString_short h0
    obtain ⟨-, -, hreset⟩ := (exec_frame hexec).ports rfl rfl
    exact ⟨_, hexec, rfl, rfl, step_of_waiting (hreset.trans hr) rfl rfl rfl rfl⟩
  · have hframe := storeBytes_frame a (textOf len s) s
    have hlen := len.isLt
    have htext : (textOf len s).length ≤ 65536 := (length_textOf_le len s).trans (by omega)
    obtain ⟨-, -, -, hm⟩ := id hbus
    refine ⟨_, exec_eeWriteStr_short hbus hl, rfl, rfl, ?_, ?_, storeBytes_ports .., ?_, ?_⟩
    · rw [hframe]; rfl
    · rw [hframe]; rfl
    · exact storesAt_storeBytes htext hm
    · refine step_of_waiting ?_ rfl (decide_eq_true (by omega)) rfl rfl
      rw [hframe]
      exact hr

end Sys2Proof.Proofs
end

section
/-!
Proofs of the encoding family: a command word compared field by field, the decoder's table beside
spec/opcode_table.json, decoding and encoding, and the packets the decoder rejects.
-/

namespace Sys2Proof.Proofs

open Sys2Proof.Machine Sys2Proof.Claims

/-! ## A command word, field by field (R81) -/

theorem getLsbD_eq_of_field_eq {v w : CmdWord} {p n k : Nat} (h : v.extractLsb' p n = w.extractLsb' p n)
    (hp : p ≤ k) (hk : k < p + n) : v.getLsbD k = w.getLsbD k := by
  have hbit := congrArg (fun f => f.getLsbD (k - p)) h
  simpa [show k - p < n by omega, show p + (k - p) = k by omega] using hbit

/-- The fields and the reserved bits make up the whole word. -/
theorem cmdWord_eq_iff {v w : CmdWord} :
    v = w ↔ cwOp v = cwOp w ∧ cwReservedLow v = cwReservedLow w ∧ cwReservedHigh v = cwReservedHigh w ∧
      cwOn v = cwOn w ∧ cwFill v = cwFill w ∧ cwA v = cwA w ∧ cwB v = cwB w ∧ cwC v = cwC w ∧ cwD v = cwD w ∧
      cwE v = cwE w := by
  constructor
  · rintro rfl
    exact ⟨rfl, rfl, rfl, rfl, rfl, rfl, rfl, rfl, rfl, rfl⟩
  · rintro ⟨hop, hlow, hhigh, hon, hfill, ha, hb, hc, hd, he⟩
    apply BitVec.eq_of_getLsbD_eq
    intro k hk
    obtain h | rfl | rfl | ⟨hl, hu⟩ | ⟨hl, hu⟩ | ⟨hl, hu⟩ | ⟨hl, hu⟩ | ⟨hl, hu⟩ | ⟨hl, hu⟩ | h :
        k < 8 ∨ k = 8 ∨ k = 9 ∨ (10 ≤ k ∧ k < 16) ∨ (16 ≤ k ∧ k < 24) ∨ (24 ≤ k ∧ k < 32) ∨ (32 ≤ k ∧ k < 40) ∨
          (40 ≤ k ∧ k < 48) ∨ (48 ≤ k ∧ k < 56) ∨ 56 ≤ k := by omega
    · exact getLsbD_eq_of_field_eq hop (Nat.zero_le k) (by omega)
    · exact hon
    · exact hfill
    · exact getLsbD_eq_of_field_eq hlow hl hu
    · exact getLsbD_eq_of_field_eq ha hl hu
    · exact getLsbD_eq_of_field_eq hb hl hu
    · exact getLsbD_eq_of_field_eq hc hl hu
    · exact getLsbD_eq_of_field_eq hd hl hu
    · exact getLsbD_eq_of_field_eq he hl hu
    · exact getLsbD_eq_of_field_eq hhigh h hk

/-- Masking bits of a word out masks them out of each field. -/
theorem extractLsb'_and_not (v w : CmdWord) {p n : Nat} (h : p + n ≤ 64) :
    (v &&& ~~~w).extractLsb' p n = v.extractLsb' p n &&& ~~~w.extractLsb' p n := by
  apply BitVec.eq_of_getLsbD_eq
  intro k hk
  simp [hk, show p + k < 64 by omega]

@[simp] theorem cwOp_and_not (v w : CmdWord) : cwOp (v &&& ~~~w) = cwOp v &&& ~~~cwOp w :=
  extractLsb'_and_not v w (by decide)

@[simp] theorem cwOn_and_not (v w : CmdWord) : cwOn (v &&& ~~~w) = (cwOn v && !cwOn w) := by
  simp [cwOn]

@[simp] theorem cwFill_and_not (v w : CmdWord) : cwFill (v &&& ~~~w) = (cwFill v && !cwFill w) := by
  simp [cwFill]

@[simp] theorem cwReservedLow_and_not (v w : CmdWord) :
    cwReservedLow (v &&& ~~~w) = cwReservedLow v &&& ~~~cwReservedLow w :=
  extractLsb'_and_not v w (by decide)

@[simp] theorem cwA_and_not (v w : CmdWord) : cwA (v &&& ~~~w) = cwA v &&& ~~~cwA w :=
  extractLsb'_and_not v w (by decide)

@[simp] theorem cwB_and_not (v w : CmdWord) : cwB (v &&& ~~~w) = cwB v &&& ~~~cwB w :=
  extractLsb'_and_not v w (by decide)

@[simp] theorem cwC_and_not (v w : CmdWord) : cwC (v &&& ~~~w) = cwC v &&& ~~~cwC w :=
  extractLsb'_and_not v w (by decide)

@[simp] theorem cwD_and_not (v w : CmdWord) : cwD (v &&& ~~~w) = cwD v &&& ~~~cwD w :=
  extractLsb'_and_not v w (by decide)

@[simp] theorem cwE_and_not (v w : CmdWord) : cwE (v &&& ~~~w) = cwE v &&& ~~~cwE w :=
  extractLsb'_and_not v w (by decide)

@[simp] theorem cwReservedHigh_and_not (v w : CmdWord) :
    cwReservedHigh (v &&& ~~~w) = cwReservedHigh v &&& ~~~cwReservedHigh w :=
  extractLsb'_and_not v w (by decide)

/-! ## Used fields and fixed bits (R82, R87) -/

/-- A field of a word where it is used, 0 where it is not. -/
def usedByte (used : Bool) (v : Byte) : Byte := if used then v else 0#8

theorem usedByte_eq_iff {used : Bool} {v : Byte} : usedByte used v = v ↔ used = true ∨ v = 0#8 := by
  cases used
  · simp [usedByte, eq_comm (a := 0#8)]
  · simp [usedByte]

/-- A field that may not be used holds no bit of the mask of the fields used. -/
theorem and_not_usedByte_eq_zero_iff {used : Bool} {v : Byte} :
    v &&& ~~~usedByte used 0xFF#8 = 0#8 ↔ used = true ∨ v = 0#8 := by
  cases used
  · have hmask : ~~~usedByte false 0xFF#8 = BitVec.allOnes 8 := by decide
    rw [hmask, BitVec.and_allOnes]
    simp
  · simp [usedByte]

theorem used_and_eq_iff {used b : Bool} : (used && b) = b ↔ used = true ∨ b = false := by
  cases used <;> simp [eq_comm]

theorem and_not_used_eq_false_iff {used b : Bool} : (b && !used) = false ↔ used = true ∨ b = false := by
  cases used <;> simp

/-- The command word of an opcode with every operand bit 0. -/
def opcodeWord (op : Byte) : CmdWord := packWord op false false 0#8 0#8 0#8 0#8 0#8

/-- The word cut down to its opcode and the fields used. -/
def keepUsed (u : UsedFields) (cw : CmdWord) : CmdWord :=
  packWord (cwOp cw) (u.on && cwOn cw) (u.fill && cwFill cw) (usedByte u.a (cwA cw)) (usedByte u.b (cwB cw))
    (usedByte u.c (cwC cw)) (usedByte u.d (cwD cw)) (usedByte u.e (cwE cw))

/-- The bits that are fixed for an opcode with these fields: all but those of the fields used. -/
def fixedBits (u : UsedFields) : CmdWord :=
  ~~~packWord 0#8 u.on u.fill (usedByte u.a 0xFF#8) (usedByte u.b 0xFF#8) (usedByte u.c 0xFF#8) (usedByte u.d 0xFF#8)
    (usedByte u.e 0xFF#8)

theorem unusedClear_iff {u : UsedFields} {cw : CmdWord} :
    unusedClear u cw = true ↔ cwReservedLow cw = 0#6 ∧ cwReservedHigh cw = 0#8 ∧ (u.on = true ∨ cwOn cw = false) ∧
      (u.fill = true ∨ cwFill cw = false) ∧ (u.a = true ∨ cwA cw = 0#8) ∧ (u.b = true ∨ cwB cw = 0#8) ∧
      (u.c = true ∨ cwC cw = 0#8) ∧ (u.d = true ∨ cwD cw = 0#8) ∧ (u.e = true ∨ cwE cw = 0#8) := by
  simp [unusedClear, and_assoc]

/-- No unused bit is set exactly when the opcode and the used fields are the whole word. -/
theorem unusedClear_iff_keepUsed {u : UsedFields} {cw : CmdWord} : unusedClear u cw = true ↔ keepUsed u cw = cw := by
  rw [unusedClear_iff, cmdWord_eq_iff]
  simp only [keepUsed, cwOp_packWord, cwOn_packWord, cwFill_packWord, cwReservedLow_packWord, cwReservedHigh_packWord,
    cwA_packWord, cwB_packWord, cwC_packWord, cwD_packWord, cwE_packWord, usedByte_eq_iff, used_and_eq_iff, true_and,
    eq_comm (a := 0#6), eq_comm (a := 0#8)]

/-- A word's fixed bits are those of the opcode `op` exactly when `op` is its opcode and no unused bit is set. -/
theorem and_fixedBits_eq_opcodeWord_iff {u : UsedFields} {cw : CmdWord} {op : Byte} :
    cw &&& fixedBits u = opcodeWord op ↔ cwOp cw = op ∧ unusedClear u cw = true := by
  have hbyte : ∀ v : Byte, v &&& ~~~0#8 = v := fun v => BitVec.and_allOnes
  have hlow : ∀ v : BitVec 6, v &&& ~~~0#6 = v := fun v => BitVec.and_allOnes
  rw [unusedClear_iff, cmdWord_eq_iff]
  simp only [fixedBits, opcodeWord, cwOp_and_not, cwOn_and_not, cwFill_and_not, cwReservedLow_and_not,
    cwReservedHigh_and_not, cwA_and_not, cwB_and_not, cwC_and_not, cwD_and_not, cwE_and_not, cwOp_packWord,
    cwOn_packWord, cwFill_packWord, cwReservedLow_packWord, cwReservedHigh_packWord, cwA_packWord, cwB_packWord,
    cwC_packWord, cwD_packWord, cwE_packWord, and_not_usedByte_eq_zero_iff, and_not_used_eq_false_iff, hbyte, hlow]

/-- The low byte of a word is its opcode. -/
theorem and_lowByte_eq_opcodeWord_iff {cw : CmdWord} {op : Byte} :
    cw &&& 0xFF#64 = opcodeWord op ↔ cwOp cw = op := by
  have hword : cw &&& 0xFF#64 = opcodeWord (cwOp cw) := by
    apply BitVec.eq_of_getLsbD_eq
    intro k hk
    have hmask : (0xFF#64).getLsbD k = decide (k < 8) := by
      rw [BitVec.getLsbD_ofNat, decide_eq_true hk, Bool.true_and]
      exact Nat.testBit_two_pow_sub_one 8 k
    rw [BitVec.getLsbD_and, hmask, opcodeWord, getLsbD_packWord, cwOp]
    simp [-BitVec.getLsbD_eq_getElem, hk, Bool.and_comm]
  rw [hword]
  exact ⟨fun h => by simpa [opcodeWord] using congrArg cwOp h, congrArg opcodeWord⟩

/-! ## The table of R82 and the opcodes of R83 -/

theorem assigned_of_opcodeRow {op : Byte} {cw : CmdWord} {p : UsedFields × Instr} (h : opcodeRow op cw = some p) :
    assigned op := by
  unfold opcodeRow at h
  split at h <;> cases h <;> decide

theorem opcodeRow_of_unassigned {op : Byte} (h : ¬assigned op) (cw : CmdWord) : opcodeRow op cw = none :=
  Option.eq_none_iff_forall_ne_some.mpr fun _ hp => h (assigned_of_opcodeRow hp)

theorem opcodeRow_of_assigned {op : Byte} (h : assigned op) (cw : CmdWord) : ∃ u i, opcodeRow op cw = some (u, i) := by
  cases hrow : opcodeRow op cw with
  | some p => exact ⟨p.1, p.2, rfl⟩
  | none =>
    unfold opcodeRow at hrow
    split at hrow <;> cases hrow
    -- only the row of the unassigned opcodes answers `none`
    simp only [imp_false, ← BitVec.toNat_inj, BitVec.toNat_ofNat] at *
    omega

/-- The encoding of a row's command holds the opcode and the fields the row uses. -/
theorem encodeWord_of_opcodeRow {cw : CmdWord} {u : UsedFields} {i : Instr}
    (h : opcodeRow (cwOp cw) cw = some (u, i)) : encodeWord i = keepUsed u cw := by
  unfold opcodeRow at h
  split at h <;> cases h <;> simp [encodeWord, keepUsed, usedByte, *]

/-- The encoding of a command stands in the command's own row. -/
theorem opcodeRow_encodeWord (i : Instr) : ∃ u, opcodeRow (cwOp (encodeWord i)) (encodeWord i) = some (u, i) := by
  cases i <;> simp [encodeWord, opcodeRow]

/-- The row of spec/opcode_table.json that a row of the decoder stands for. -/
def tableRow (op : Byte) (u : UsedFields) (i : Instr) : TableRow := ⟨mnemonic i, fixedBits u, opcodeWord op⟩

theorem tableRow_mem_opcodeTable {op : Byte} {cw : CmdWord} {u : UsedFields} {i : Instr}
    (h : opcodeRow op cw = some (u, i)) : tableRow op u i ∈ opcodeTable := by
  unfold opcodeRow at h
  split at h <;> cases h <;> simp only [tableRow, mnemonic] <;> decide

theorem eq_of_mnemonic_eq : ∀ r ∈ opcodeTable, ∀ r' ∈ opcodeTable, r.mnemonic = r'.mnemonic → r = r' := by decide

theorem eq_of_value_eq : ∀ r ∈ opcodeTable, ∀ r' ∈ opcodeTable, r.value = r'.value → r = r' := by decide

theorem value_of_mem_opcodeTable : ∀ r ∈ opcodeTable, assigned (cwOp r.value) ∧ r.value = opcodeWord (cwOp r.value) := by
  decide

/-- Every row of spec/opcode_table.json is a row of the decoder. -/
theorem exists_opcodeRow_of_mem {row : TableRow} (h : row ∈ opcodeTable) (cw : CmdWord) :
    ∃ op u i, opcodeRow op cw = some (u, i) ∧ row = tableRow op u i := by
  obtain ⟨hop, hvalue⟩ := value_of_mem_opcodeTable row h
  obtain ⟨u, i, hrow⟩ := opcodeRow_of_assigned hop cw
  exact ⟨_, u, i, hrow, eq_of_value_eq _ h _ (tableRow_mem_opcodeTable hrow) hvalue⟩

/-! ## What a word decodes to (R87 to R89) -/

theorem decodeWord_eq_instr_iff {cw : CmdWord} {i : Instr} :
    decodeWord cw = .instr i ↔ ∃ u, opcodeRow (cwOp cw) cw = some (u, i) ∧ unusedClear u cw = true := by
  unfold decodeWord
  cases opcodeRow (cwOp cw) cw with
  | none => simp
  | some p => obtain ⟨u, j⟩ := p; by_cases hu : unusedClear u cw = true <;> simp [hu]

theorem decodeWord_eq_illegalOpcode_iff {cw : CmdWord} : decodeWord cw = .illegalOpcode ↔ ¬assigned (cwOp cw) := by
  by_cases h : assigned (cwOp cw)
  · obtain ⟨u, i, hrow⟩ := opcodeRow_of_assigned h cw
    simp only [decodeWord, hrow, h, not_true, iff_false]
    split <;> exact nofun
  · simp [decodeWord, opcodeRow_of_unassigned h, h]

theorem decodeWord_eq_reservedBits {cw : CmdWord} (h : unusedBitSet cw) : decodeWord cw = .reservedBits := by
  obtain ⟨row, hmem, hop, hbits⟩ := h
  obtain ⟨op, u, i, hrow, rfl⟩ := exists_opcodeRow_of_mem hmem cw
  obtain rfl := and_lowByte_eq_opcodeWord_iff.mp hop
  have hu : ¬unusedClear u cw = true := fun hu => hbits (and_fixedBits_eq_opcodeWord_iff.mpr ⟨rfl, hu⟩)
  simp [decodeWord, hrow, hu]

theorem unusedBitSet_of_reservedBits {cw : CmdWord} (h : decodeWord cw = .reservedBits) : unusedBitSet cw := by
  by_cases hop : assigned (cwOp cw)
  · obtain ⟨u, i, hrow⟩ := opcodeRow_of_assigned hop cw
    refine ⟨_, tableRow_mem_opcodeTable hrow, and_lowByte_eq_opcodeWord_iff.mpr rfl, fun hbits => ?_⟩
    obtain ⟨-, hu⟩ := and_fixedBits_eq_opcodeWord_iff.mp hbits
    rw [decodeWord_eq_instr_iff.mpr ⟨u, hrow, hu⟩] at h
    cases h
  · rw [decodeWord_eq_illegalOpcode_iff.mpr hop] at h
    cases h

/-! ## Decoding and encoding -/

theorem decodeWord_encodeWord (i : Instr) : decodeWord (encodeWord i) = .instr i := by
  obtain ⟨u, hrow⟩ := opcodeRow_encodeWord i
  have hkeep : keepUsed u (encodeWord i) = encodeWord i := (encodeWord_of_opcodeRow hrow).symm
  exact decodeWord_eq_instr_iff.mpr ⟨u, hrow, unusedClear_iff_keepUsed.mpr hkeep⟩

/-- Settles O1: the header splits off whole, and the word of a command decodes to it. -/
theorem decodeInvertsEncode : Obligations.DecodeInvertsEncode := by
  intro i rest
  rw [decode_encode_append, decodeWord_encodeWord]

/-- Settles O2: the encoding is the word cut down to its opcode and used fields, and an accepted word is no more. -/
theorem encodeInvertsDecode : Obligations.EncodeInvertsDecode := by
  intro cw i h
  obtain ⟨u, hrow, hu⟩ := decodeWord_eq_instr_iff.mp h
  exact (encodeWord_of_opcodeRow hrow).trans (unusedClear_iff_keepUsed.mp hu)

/-- Settles O3: a mnemonic stands in one row only, whose fixed bits are the opcode and the fields not used. -/
theorem decodeFollowsOpcodeTable : Obligations.DecodeFollowsOpcodeTable := by
  intro row hmem cw
  constructor
  · rintro ⟨i, hd, hname⟩
    obtain ⟨u, hrow, hu⟩ := decodeWord_eq_instr_iff.mp hd
    obtain rfl := eq_of_mnemonic_eq _ (tableRow_mem_opcodeTable hrow) _ hmem hname
    exact and_fixedBits_eq_opcodeWord_iff.mpr ⟨rfl, hu⟩
  · intro hbits
    obtain ⟨op, u, i, hrow, rfl⟩ := exists_opcodeRow_of_mem hmem cw
    obtain ⟨rfl, hu⟩ := and_fixedBits_eq_opcodeWord_iff.mp hbits
    exact ⟨i, decodeWord_eq_instr_iff.mpr ⟨u, hrow, hu⟩, rfl⟩

/-- The words and bytes of the spec's vectors, encoded. -/
theorem encode_of_mem_headerVectors : ∀ p ∈ headerVectors, encodeWord p.2.2 = p.1 ∧ bytesOfWord p.1 = p.2.1 := by decide

/-- Settles O5: the vectors are computed in the encoding direction; decoding inverts it. -/
theorem headerVectorsDecode : Obligations.HeaderVectorsDecode := by
  intro p hmem
  obtain ⟨hword, hbytes⟩ := encode_of_mem_headerVectors p hmem
  rw [← hbytes, ← hword]
  exact ⟨wordOfBytes_bytesOfWord _, decodeWord_encodeWord p.2.2, rfl⟩

/-! ## Rejected packets (R87, R88) -/

theorem runWord_of_unassigned {cw : CmdWord} (h : ¬assigned (cwOp cw)) (s : State) :
    runWord cw s = .next (s.raise .illegalOpcode) := by
  rw [runWord, decodeWord_eq_illegalOpcode_iff.mpr h]
  rfl

theorem runWord_of_unusedBitSet {cw : CmdWord} (h : unusedBitSet cw) (s : State) :
    runWord cw s = .next (rejectReserved cw s) := by
  rw [runWord, decodeWord_eq_reservedBits h]

/-- Rejecting a packet writes STATUS and what discarding its payload takes. -/
theorem rejectReserved_frame (cw : CmdWord) (s : State) :
    ∃ c p, rejectReserved cw s = { s with status := (s.raise .reservedBits).status, cmd := c, parser := p } := by
  unfold rejectReserved
  split
  · next n _ =>
    obtain ⟨c, p, heq, -⟩ := discardFrom_frame cw n (s.raise .reservedBits)
    exact ⟨c, p, heq⟩
  · obtain ⟨c, p, heq, -⟩ := discardThroughNullFrom_frame cw s.cmd (s.raise .reservedBits)
    exact ⟨c, p, heq⟩

/-- Settles O4: the decoder's three answers are the three cases of R89. -/
theorem decodeChecksOpcodeFirst : Obligations.DecodeChecksOpcodeFirst := by
  refine fun cw s => ⟨fun hop => runWord_of_unassigned hop s, fun _ hbits => ?_, fun hop hbits => ?_⟩
  · obtain ⟨c, p, heq⟩ := rejectReserved_frame cw s
    exact ⟨_, runWord_of_unusedBitSet hbits s, by rw [heq]⟩
  · cases hd : decodeWord cw with
    | instr i => exact ⟨i, rfl, by rw [runWord, hd]⟩
    | illegalOpcode => exact absurd hop (decodeWord_eq_illegalOpcode_iff.mp hd)
    | reservedBits => exact absurd (unusedBitSet_of_reservedBits hd) hbits

/-- Settles O8: the header is consumed, and the decoder looks at the opcode alone. -/
theorem illegalPacketTakesHeaderOnly : Obligations.IllegalPacketTakesHeaderOnly := by
  intro s got h rest ha hop
  rw [step_of_headerArrives ha, runWord_of_unassigned hop]

/-! ## Discarding a payload that is all there (R84, R87) -/

theorem discardFrom_payload {cw : CmdWord} {payload rest : List Byte} {s : State} (hc : s.cmd = payload ++ rest) :
    discardFrom cw payload.length s = s.setCmd rest := by
  induction payload generalizing s with
  | nil => rw [← List.nil_append rest, ← hc]; rfl
  | cons b payload ih => rw [List.length_cons, discardFrom_of_cons hc, ih rfl]; rfl

theorem discardThroughNullFrom_payload {cw : CmdWord} {text : List Byte} (h0 : 0x00#8 ∉ text) (rest : List Byte)
    (s : State) : discardThroughNullFrom cw (text ++ 0x00#8 :: rest) s = s.setCmd rest := by
  induction text with
  | nil => rfl
  | cons b text ih =>
    obtain ⟨hb, htext⟩ := not_or.mp (mt List.mem_cons.mpr h0)
    rw [List.cons_append, discardThroughNullFrom, if_neg (Ne.symm hb), ih htext]

/-- R84 as the statements write it and as the parser reads it. -/
theorem admits_cwPayload_of_isPayloadOf {cw : CmdWord} {payload : List Byte} (h : isPayloadOf cw payload) :
    (cwPayload cw).admits payload = true := by
  unfold cwPayload cwOp
  split <;> simp_all [isPayloadOf, PayloadShape.admits, cwAddr2]

/-- A rejected packet whose payload is all there: the payload is gone and the error is raised. -/
theorem rejectReserved_payload {cw : CmdWord} {payload rest : List Byte} {s : State}
    (h : (cwPayload cw).admits payload = true) (hc : s.cmd = payload ++ rest) :
    rejectReserved cw s = (s.setCmd rest).raise .reservedBits := by
  unfold rejectReserved
  cases hshape : cwPayload cw with
  | bytes n =>
    rw [hshape] at h
    obtain rfl : payload.length = n := by simpa [PayloadShape.admits] using h
    exact discardFrom_payload (s := s.raise .reservedBits) hc
  | throughNull =>
    rw [hshape] at h
    obtain ⟨hlast, h0⟩ : payload.getLast? = some 0x00#8 ∧ 0x00#8 ∉ payload.dropLast := by
      simpa [PayloadShape.admits] using h
    have hsplit : s.cmd = payload.dropLast ++ 0x00#8 :: rest := by
      rw [hc, ← List.dropLast_append_getLast? _ hlast]
      simp
    rw [hsplit]
    exact discardThroughNullFrom_payload h0 rest (s.raise .reservedBits)

/-- Settles O9: the header is consumed, and the payload of the word's shape is discarded. -/
theorem reservedBitsDiscardPayload : Obligations.ReservedBitsDiscardPayload := by
  intro s got h payload rest ha hbits hpayload
  rw [step_of_headerArrives ha, runWord_of_unusedBitSet hbits,
    rejectReserved_payload (admits_cwPayload_of_isPayloadOf hpayload) rfl]
  rfl

end Sys2Proof.Proofs
end

section
/-!
Proofs of the framebuffer family: the framebuffer cleared and inverted, one pixel written, the 504 bytes in wire
order, the bitmap loaded, and the frame on the display link.
-/

namespace Sys2Proof.Proofs

open Sys2Proof.Machine Sys2Proof.Claims

/-! ## The whole framebuffer (R110, R112) -/

/-- Settles O26: the framebuffer of all zeros is the one CLEAR leaves. -/
theorem clearZeroesEveryByte : Obligations.ClearZeroesEveryByte :=
  fun _ => ⟨vramZero, rfl, fun k _ => vramRead_vramZero k⟩

/-- Inverting every byte flips every pixel of the screen. -/
theorem pixRead_vramInvert {x y : Int} (h : onScreen x y = true) (v : Vram) :
    pixRead (vramInvert v) x y = !pixRead v x y := by
  have hones : (0xFF#8).getLsbD (pixBit y) = true := by
    change (BitVec.allOnes 8).getLsbD (pixBit y) = true
    rw [BitVec.getLsbD_allOnes]
    exact decide_eq_true (pixBit_lt y)
  simp only [pixRead, vramRead_vramInvert v (pixIndex_lt h), BitVec.getLsbD_xor, hones, Bool.xor_true]

theorem vramInvert_vramInvert (v : Vram) : vramInvert (vramInvert v) = v := by
  refine vram_ext fun i hi => ?_
  rw [vramRead_vramInvert _ hi, vramRead_vramInvert v hi, BitVec.xor_assoc, BitVec.xor_self, BitVec.xor_zero]

/-- Settles O28: XOR with 0xFF flips each pixel and undoes itself. -/
theorem invertFlipsEveryPixel : Obligations.InvertFlipsEveryPixel := by
  refine fun s => ⟨vramInvert s.vram, rfl, fun x y hx hx' hy hy' => ?_, ?_⟩
  · exact pixRead_vramInvert (onScreen_iff.mpr ⟨hx, hx', hy, hy'⟩) s.vram
  · change Host.Outcome.next (s.setVram (vramInvert (vramInvert s.vram))) = .next s
    rw [vramInvert_vramInvert]
    rfl

/-! ## One pixel (R111, R140, R141) -/

/-- A point is off the screen as soon as one of its coordinates is past the edge. -/
theorem onScreen_coord_eq_false {x y : Byte} (h : 84 ≤ x.toNat ∨ 48 ≤ y.toNat) :
    onScreen (coord x) (coord y) = false := by
  rw [Bool.eq_false_iff, Ne, onScreen_iff]
  simp only [coord]
  omega

/-- A command that makes one pixel write draws that pixel and no other (R53). -/
theorem draws_of_pix {s : State} {i : Instr} {x y : Int} {on : Bool}
    (h : exec i s = .next (s.setVram (pix x y on s.vram))) : Draws s i on (fun px py => px = x ∧ py = y) := by
  refine ⟨_, h, fun px py hx hx' hy hy' => ?_⟩
  have hon : onScreen px py = true := onScreen_iff.mpr ⟨hx, hx', hy, hy'⟩
  constructor
  · rintro ⟨rfl, rfl⟩
    exact pixRead_pix_same hon on s.vram
  · exact fun hne => pixRead_pix_other hon hne on s.vram

/-- Settles O27: PLOT's `plot` is SETPIXEL's `pix`. -/
theorem setPixelAndPlotWriteOnePixel : Obligations.SetPixelAndPlotWriteOnePixel := by
  refine fun s x y on => ⟨draws_of_pix rfl, rfl, fun hoff => ?_⟩
  change Host.Outcome.next (s.setVram (pix (coord x) (coord y) on s.vram)) = .next s
  rw [pix_off (onScreen_coord_eq_false hoff)]
  rfl

/-! ## The 504 bytes in wire order (R55, R113, R114) -/

@[simp] theorem length_vramBytes (v : Vram) : (vramBytes v).length = 504 := by simp [vramBytes]

theorem getElem?_vramBytes (v : Vram) {k : Nat} (h : k < 504) : (vramBytes v)[k]? = some (vramRead v k) := by
  simp [vramBytes, vramRead_eq_getElem v h, h]

/-- A list of 504 bytes that are the framebuffer's is what SERIALIZE responds. -/
theorem vramBytes_eq {v : Vram} {bytes : List Byte} (hl : bytes.length = 504)
    (h : ∀ k, k < 504 → bytes[k]? = some (vramRead v k)) : vramBytes v = bytes := by
  refine List.ext_getElem? fun k => ?_
  rcases Nat.lt_or_ge k 504 with hk | hk
  · rw [getElem?_vramBytes v hk, h k hk]
  · rw [List.getElem?_eq_none (by rwa [length_vramBytes]), List.getElem?_eq_none (by omega)]

theorem exec_serialize (s : State) : exec .serialize s = .next (s.setRsp (s.rsp ++ vramBytes s.vram)) := rfl

/-- Settles O29: the bytes are those of `vramBytes`. -/
theorem serializeSendsIndexOrder : Obligations.SerializeSendsIndexOrder :=
  fun s => ⟨vramBytes s.vram, length_vramBytes _, fun _ hk => getElem?_vramBytes _ hk, exec_serialize s⟩

/-- A LOADBITMAP whose 504 payload bytes are all there writes them from index 0 on and completes. -/
theorem exec_loadBitmap_payload {s : State} {image rest : List Byte} (hl : image.length = 504)
    (hc : s.cmd = image ++ rest) :
    exec .loadBitmap s = .next ((s.setCmd rest).setVram (vramWriteFrom 0 image s.vram)) := by
  have hrun := loadBitmapFrom_payload (cw := encodeWord .loadBitmap) (i := 0) (left := 0) (by omega) hc
  rw [Nat.add_zero, hl, loadBitmapFrom] at hrun
  exact congrArg Host.Outcome.next hrun

/-- Settles O30: the bytes written from index 0 on are read back in the same order. -/
theorem loadBitmapThenSerialize : Obligations.LoadBitmapThenSerialize := by
  intro s image rest hl hc
  have hread : ∀ k, k < 504 → image[k]? = some (vramRead (vramWriteFrom 0 image s.vram) k) := by
    intro k hk
    have hb : image[k]? = some (image[k]'(by omega)) := List.getElem?_eq_getElem _
    have hbyte := vramRead_vramWriteFrom hb (i := 0) (by omega) s.vram
    rw [Nat.zero_add] at hbyte
    rw [hbyte, hb]
  refine ⟨_, exec_loadBitmap_payload hl hc, hread, ?_⟩
  rw [exec_serialize, State.setVram_vram, vramBytes_eq hl hread]
  rfl

/-! ## The frame on the display link (R115, R116) -/

/-- The display link has no handshake: only RESET can keep an event from completing. -/
theorem drive_panelLink_completes {s : State} (h : ∀ n, s.portPlan ≠ .resetAfter n) (es : List PortEvent) :
    s.drive .panelLink es = (s.logPorts es, none) := by
  rw [drive_panelLink]
  cases hp : s.portPlan with
  | free | stuckAfter => simp only [State.driveEnabled, hp]
  | resetAfter n => exact absurd hp (h n)

/-- Settles O31: no event of the frame is kept from completing. -/
theorem flushSendsOneFrame : Obligations.FlushSendsOneFrame := by
  refine fun s hplan =>
    ⟨vramBytes s.vram, length_vramBytes _, fun _ hk => getElem?_vramBytes _ hk, exec_serialize s, ?_⟩
  change execFlush s = _
  rw [execFlush, drive_panelLink_completes hplan]
  rfl

end Sys2Proof.Proofs
end

section
/-!
Proofs of the rasterizer family: the points of a line in closed form, the box and the boundary of a rectangle, and
the bar.
-/

namespace Sys2Proof.Proofs

open Sys2Proof.Machine Sys2Proof.Claims

/-! ## Distances and directions (R142) -/

theorem axisDist_nonneg (p q : Int) : 0 ≤ axisDist p q := Int.natCast_nonneg _

theorem axisDist_self (p : Int) : axisDist p p = 0 := by simp [axisDist]

/-- Going the distance in the step direction leads from one end to the other. -/
theorem add_stepSign_mul_axisDist (p q : Int) : p + stepSign p q * axisDist p q = q := by
  simp only [stepSign, axisDist]
  split <;> omega

/-- A step along the direction of travel changes the coordinate by its length. -/
theorem axisDist_add_stepSign_mul (p q c m k : Int) :
    axisDist (c + stepSign p q * m) (c + stepSign p q * k) = axisDist m k := by
  simp only [stepSign, axisDist]
  split <;> omega

theorem xMajor_iff {x1 y1 x2 y2 : Int} : xMajor x1 y1 x2 y2 = true ↔ axisDist y1 y2 ≤ axisDist x1 x2 := by
  simp only [xMajor, axisDist, decide_eq_true_iff, Int.ofNat_le]

/-- The coordinates between two ends are those a number of steps up to the distance away from the first. -/
theorem between_iff_exists_step {p q x : Int} :
    between p q x ↔ ∃ n : Nat, n < (axisDist p q).toNat + 1 ∧ p + stepSign p q * (n : Int) = x := by
  simp only [between, stepSign, axisDist]
  constructor
  · intro h
    refine ⟨(x - p).natAbs, ?_, ?_⟩
    · omega
    · split <;> omega
  · rintro ⟨n, hn, rfl⟩
    split <;> omega

/-! ## The minor axis: `floor(n × dmin / dmaj + 1/2)` (R142) -/

/-- How far the minor coordinate has moved at step `n`. -/
def minorOffset (dmaj dmin : Int) (n : Nat) : Int := (2 * (n : Int) * dmin + dmaj) / (2 * dmaj)

/-- Rounding to the nearest, an exact half up. -/
theorem minorOffset_eq_iff {dmaj : Int} (hpos : 0 < dmaj) (dmin : Int) (n : Nat) (m : Int) :
    minorOffset dmaj dmin n = m ↔
      2 * dmaj * m ≤ 2 * (n : Int) * dmin + dmaj ∧ 2 * (n : Int) * dmin + dmaj < 2 * dmaj * m + 2 * dmaj := by
  rw [minorOffset, Int.ediv_eq_iff_of_pos (by omega), mul_comm m]

theorem minorOffset_bounds {dmaj : Int} (hpos : 0 < dmaj) (dmin : Int) (n : Nat) :
    2 * dmaj * minorOffset dmaj dmin n ≤ 2 * (n : Int) * dmin + dmaj ∧
      2 * (n : Int) * dmin + dmaj < 2 * dmaj * minorOffset dmaj dmin n + 2 * dmaj :=
  (minorOffset_eq_iff hpos dmin n _).mp rfl

/-- Nothing is moved at the first step; on the degenerate line by Lean's `0 / 0 = 0`. -/
theorem minorOffset_zero {dmaj : Int} (h : 0 ≤ dmaj) (dmin : Int) : minorOffset dmaj dmin 0 = 0 := by
  rcases h.eq_or_lt with rfl | hpos
  · simp [minorOffset]
  · rw [minorOffset_eq_iff hpos]
    simp
    omega

/-- At the last step the whole minor distance is covered. -/
theorem minorOffset_last {dmaj dmin : Int} (hmin : 0 ≤ dmin) (h : dmin ≤ dmaj) :
    minorOffset dmaj dmin dmaj.toNat = dmin := by
  rcases (hmin.trans h).eq_or_lt with rfl | hpos
  · rw [Int.toNat_zero, minorOffset_zero le_rfl]
    omega
  · rw [minorOffset_eq_iff hpos, Int.toNat_of_nonneg hpos.le]
    constructor <;> linarith

/-- A line along one axis never leaves it. -/
theorem minorOffset_of_dmin_zero {dmaj : Int} (h : 0 ≤ dmaj) (n : Nat) : minorOffset dmaj 0 n = 0 := by
  have hzero := minorOffset_zero h 0
  simpa [minorOffset] using hzero

/-- From one step to the next the minor coordinate moves by one exactly when the decision variable of R142 is not
negative. -/
theorem minorOffset_succ {dmaj dmin : Int} (hpos : 0 < dmaj) (hmin : 0 ≤ dmin) (h : dmin ≤ dmaj) (n : Nat) :
    minorOffset dmaj dmin (n + 1) =
      if 2 * ((n : Int) + 1) * dmin - dmaj - 2 * dmaj * minorOffset dmaj dmin n < 0 then minorOffset dmaj dmin n
      else minorOffset dmaj dmin n + 1 := by
  obtain ⟨hlow, hhigh⟩ := minorOffset_bounds hpos dmin n
  rw [minorOffset_eq_iff hpos, Nat.cast_add_one]
  split
  · constructor <;> linarith
  · constructor <;> linarith

theorem axisDist_minorOffset_succ_le_one {dmaj dmin : Int} (hpos : 0 < dmaj) (hmin : 0 ≤ dmin) (h : dmin ≤ dmaj)
    (n : Nat) : axisDist (minorOffset dmaj dmin n) (minorOffset dmaj dmin (n + 1)) ≤ 1 := by
  rw [minorOffset_succ hpos hmin h, axisDist]
  split <;> omega

/-! ## The points of a line (R142) -/

/-- The Bresenham loop from step `k` on, its decision variable in closed form. -/
theorem bresenham_eq_map {dmaj dmin : Int} (hpos : 0 < dmaj) (hmin : 0 ≤ dmin) (h : dmin ≤ dmaj)
    (smaj smin maj min : Int) (n k : Nat) :
    bresenham dmaj dmin smaj smin n (maj + smaj * k) (min + smin * minorOffset dmaj dmin k)
        (2 * ((k : Int) + 1) * dmin - dmaj - 2 * dmaj * minorOffset dmaj dmin k) =
      (List.range' k n).map fun (i : Nat) => (maj + smaj * (i : Int), min + smin * minorOffset dmaj dmin i) := by
  induction n generalizing k with
  | zero => rfl
  | succ n ih =>
    have hnext := ih (k + 1)
    rw [List.range'_succ, List.map_cons, ← hnext, bresenham, minorOffset_succ hpos hmin h, Nat.cast_add_one]
    congr 1
    split
    · congr 1 <;> ring
    · congr 1 <;> ring

/-- The point of an x-major line at step `n`. -/
def xMajorPoint (x1 y1 x2 y2 : Int) (n : Nat) : Int × Int :=
  (x1 + stepSign x1 x2 * (n : Int), y1 + stepSign y1 y2 * minorOffset (axisDist x1 x2) (axisDist y1 y2) n)

/-- An x-major line, ties included, in closed form. -/
theorem linePts_of_xMajor {x1 y1 x2 y2 : Int} (h : axisDist y1 y2 ≤ axisDist x1 x2) :
    linePts x1 y1 x2 y2 = (List.range ((axisDist x1 x2).toNat + 1)).map (xMajorPoint x1 y1 x2 y2) := by
  have hdx := axisDist_nonneg x1 x2
  have hdy := axisDist_nonneg y1 y2
  have hloop : linePts x1 y1 x2 y2 = bresenham (axisDist x1 x2) (axisDist y1 y2) (stepSign x1 x2) (stepSign y1 y2)
      ((axisDist x1 x2).toNat + 1) x1 y1 (2 * axisDist y1 y2 - axisDist x1 x2) := by
    rw [linePts, if_pos (xMajor_iff.mpr h)]
    rfl
  have hstart := minorOffset_zero hdx (axisDist y1 y2)
  rw [hloop]
  rcases hdx.eq_or_lt with hpoint | hpos
  · rw [← hpoint] at hstart ⊢
    simp [bresenham, xMajorPoint, hstart, ← hpoint]
  · have hmap := bresenham_eq_map hpos hdy h (stepSign x1 x2) (stepSign y1 y2) x1 y1 ((axisDist x1 x2).toNat + 1) 0
    rw [hstart, ← List.range_eq_range'] at hmap
    simp only [Nat.cast_zero, mul_zero, add_zero, zero_add, mul_one, sub_zero] at hmap
    exact hmap

/-- A y-major line is the line with the axes exchanged. -/
theorem linePts_of_yMajor {x1 y1 x2 y2 : Int} (h : axisDist x1 x2 < axisDist y1 y2) :
    linePts x1 y1 x2 y2 = (linePts y1 x1 y2 x2).map Prod.swap := by
  have hx : ¬xMajor x1 y1 x2 y2 = true := by rw [xMajor_iff]; omega
  have hy : xMajor y1 x1 y2 x2 = true := xMajor_iff.mpr h.le
  rw [linePts, if_neg hx, linePts, if_pos hy]
  rfl

/-- Settles O32: the loop's closed form, on a y-major line with the axes exchanged. The statement casts its list of
step numbers to integers before it maps over them. -/
theorem linePointsClosedForm : Obligations.LinePointsClosedForm := by
  refine fun x1 y1 x2 y2 => ⟨fun h => ?_, fun h => ?_⟩
  · rw [bind_pure_comp, List.map_eq_map, List.map_map]
    exact linePts_of_xMajor h
  · rw [bind_pure_comp, List.map_eq_map, List.map_map, linePts_of_yMajor h, linePts_of_xMajor h.le, List.map_map]
    rfl

/-! ## The ends and the steps of a line (R142) -/

section XMajor

variable {x1 y1 x2 y2 : Int} (h : axisDist y1 y2 ≤ axisDist x1 x2)
include h

theorem length_linePts_of_xMajor : ((linePts x1 y1 x2 y2).length : Int) = axisDist x1 x2 + 1 := by
  rw [linePts_of_xMajor h, List.length_map, List.length_range, Nat.cast_add_one,
    Int.toNat_of_nonneg (axisDist_nonneg x1 x2)]

theorem head?_linePts_of_xMajor : (linePts x1 y1 x2 y2).head? = some (x1, y1) := by
  rw [linePts_of_xMajor h, List.range_succ_eq_map]
  simp [xMajorPoint, minorOffset_zero (axisDist_nonneg x1 x2)]

theorem getLast?_linePts_of_xMajor : (linePts x1 y1 x2 y2).getLast? = some (x2, y2) := by
  rw [linePts_of_xMajor h, List.range_succ, List.map_append, List.map_singleton, List.getLast?_concat,
    xMajorPoint, minorOffset_last (axisDist_nonneg y1 y2) h, Int.toNat_of_nonneg (axisDist_nonneg x1 x2),
    add_stepSign_mul_axisDist, add_stepSign_mul_axisDist]

theorem eq_xMajorPoint_of_getElem? {n : Nat} {p : Int × Int} (hp : (linePts x1 y1 x2 y2)[n]? = some p) :
    (n : Int) ≤ axisDist x1 x2 ∧ p = xMajorPoint x1 y1 x2 y2 n := by
  simp only [linePts_of_xMajor h, List.getElem?_eq_some_iff, List.length_map, List.length_range, List.getElem_map,
    List.getElem_range] at hp
  obtain ⟨hn, rfl⟩ := hp
  have hdx := axisDist_nonneg x1 x2
  exact ⟨by omega, rfl⟩

theorem axisDist_step_linePts_of_xMajor {n : Nat} {p q : Int × Int} (hp : (linePts x1 y1 x2 y2)[n]? = some p)
    (hq : (linePts x1 y1 x2 y2)[n + 1]? = some q) : axisDist p.1 q.1 = 1 ∧ axisDist p.2 q.2 ≤ 1 := by
  obtain ⟨-, rfl⟩ := eq_xMajorPoint_of_getElem? h hp
  obtain ⟨hlast, rfl⟩ := eq_xMajorPoint_of_getElem? h hq
  simp only [xMajorPoint, axisDist_add_stepSign_mul]
  refine ⟨?_, axisDist_minorOffset_succ_le_one (by omega) (axisDist_nonneg y1 y2) h n⟩
  rw [axisDist]
  omega

end XMajor

theorem head?_linePts (x1 y1 x2 y2 : Int) : (linePts x1 y1 x2 y2).head? = some (x1, y1) := by
  rcases le_or_gt (axisDist y1 y2) (axisDist x1 x2) with h | h
  · exact head?_linePts_of_xMajor h
  · rw [linePts_of_yMajor h, List.head?_map, head?_linePts_of_xMajor h.le]
    rfl

theorem getLast?_linePts (x1 y1 x2 y2 : Int) : (linePts x1 y1 x2 y2).getLast? = some (x2, y2) := by
  rcases le_or_gt (axisDist y1 y2) (axisDist x1 x2) with h | h
  · exact getLast?_linePts_of_xMajor h
  · rw [linePts_of_yMajor h, List.getLast?_map, getLast?_linePts_of_xMajor h.le]
    rfl

theorem length_linePts (x1 y1 x2 y2 : Int) :
    ((linePts x1 y1 x2 y2).length : Int) = max (axisDist x1 x2) (axisDist y1 y2) + 1 := by
  rcases le_or_gt (axisDist y1 y2) (axisDist x1 x2) with h | h
  · rw [length_linePts_of_xMajor h, max_eq_left h]
  · rw [linePts_of_yMajor h, List.length_map, length_linePts_of_xMajor h.le, max_eq_right h.le]

/-- Settles O33: on a y-major line the steps are those of the line with the axes exchanged. -/
theorem lineJoinsItsEnds : Obligations.LineJoinsItsEnds := by
  refine fun x1 y1 x2 y2 => ⟨length_linePts .., head?_linePts .., getLast?_linePts .., fun n p q hp hq => ?_⟩
  split
  next h => exact axisDist_step_linePts_of_xMajor h hp hq
  next h =>
    have hy : axisDist x1 x2 < axisDist y1 y2 := not_le.mp h
    rw [linePts_of_yMajor hy, List.getElem?_map, Option.map_eq_some_iff] at hp hq
    obtain ⟨p, hp, rfl⟩ := hp
    obtain ⟨q, hq, rfl⟩ := hq
    exact axisDist_step_linePts_of_xMajor hy.le hp hq

/-! ## Plotting a list of points (R140, R143) -/

/-- A command that plots a list of points draws the points of the list. -/
theorem draws_of_plotAll {s : State} {i : Instr} {pts : List (Int × Int)} {on : Bool} {covers : Int → Int → Prop}
    (h : exec i s = .next (s.setVram (plotAll pts on s.vram))) (hmem : ∀ x y, (x, y) ∈ pts ↔ covers x y) :
    Draws s i on covers := by
  refine ⟨_, h, fun x y hx hx' hy hy' => ?_⟩
  rw [pixRead_plotAll pts on s.vram (onScreen_iff.mpr ⟨hx, hx', hy, hy'⟩), ← hmem]
  exact ⟨fun hin => if_pos hin, fun hout => if_neg hout⟩

/-- Settles O34: LINE plots the list of the line's points. -/
theorem lineDrawsItsPoints : Obligations.LineDrawsItsPoints :=
  fun _ _ _ _ _ _ => draws_of_plotAll rfl fun _ _ => Iff.rfl

/-! ## Rectangles (R144) -/

theorem mem_intRange {lo hi x : Int} : x ∈ intRange lo hi ↔ lo ≤ x ∧ x ≤ hi := by
  simp only [intRange, List.mem_map, List.mem_range]
  constructor
  · rintro ⟨k, hk, rfl⟩
    omega
  · exact fun h => ⟨(x - lo).toNat, by omega, by omega⟩

/-- A horizontal line covers what lies between its ends. -/
theorem mem_linePts_horizontal {x1 x2 y0 x y : Int} :
    (x, y) ∈ linePts x1 y0 x2 y0 ↔ between x1 x2 x ∧ y = y0 := by
  have hdist : axisDist y0 y0 ≤ axisDist x1 x2 := by
    rw [axisDist_self]
    exact axisDist_nonneg x1 x2
  rw [linePts_of_xMajor hdist, between_iff_exists_step]
  simp only [xMajorPoint, axisDist_self, minorOffset_of_dmin_zero (axisDist_nonneg x1 x2), mul_zero, add_zero,
    List.mem_map, List.mem_range, Prod.mk.injEq]
  constructor
  · rintro ⟨n, hn, hx, hy⟩
    exact ⟨⟨n, hn, hx⟩, hy.symm⟩
  · rintro ⟨⟨n, hn, hx⟩, hy⟩
    exact ⟨n, hn, hx, hy.symm⟩

/-- A vertical line covers what lies between its ends; the single point is horizontal by the tie rule. -/
theorem mem_linePts_vertical {x0 y1 y2 x y : Int} :
    (x, y) ∈ linePts x0 y1 x0 y2 ↔ x = x0 ∧ between y1 y2 y := by
  by_cases hy : y1 = y2
  · subst hy
    rw [mem_linePts_horizontal]
    simp only [between]
    omega
  · have hdist : axisDist x0 x0 < axisDist y1 y2 := by
      simp only [axisDist]
      omega
    have hswap : (x, y) = Prod.swap (y, x) := rfl
    rw [linePts_of_yMajor hdist, hswap, List.mem_map_of_injective Prod.swap_injective, mem_linePts_horizontal, and_comm]

theorem mem_rectPts_fill {x1 y1 x2 y2 x y : Int} :
    (x, y) ∈ rectPts x1 y1 x2 y2 true ↔ between x1 x2 x ∧ between y1 y2 y := by
  simp only [rectPts, if_true, List.mem_flatMap, List.mem_map, mem_intRange, Prod.mk.injEq]
  constructor
  · rintro ⟨_, hx, _, hy, rfl, rfl⟩
    exact ⟨hx, hy⟩
  · exact fun ⟨hx, hy⟩ => ⟨x, hx, y, hy, rfl, rfl⟩

/-- The four segments of the outline are the boundary of the box. -/
theorem mem_rectPts_outline {x1 y1 x2 y2 x y : Int} :
    (x, y) ∈ rectPts x1 y1 x2 y2 false ↔
      between x1 x2 x ∧ between y1 y2 y ∧ (x = x1 ∨ x = x2 ∨ y = y1 ∨ y = y2) := by
  simp only [rectPts, Bool.false_eq_true, if_false, List.mem_append, mem_linePts_horizontal, mem_linePts_vertical,
    between]
  omega

/-- Settles O35: RECT plots the points of `rectPts`, the box or its four sides. -/
theorem rectCoversBoxOrBoundary : Obligations.RectCoversBoxOrBoundary :=
  fun _ _ _ _ _ _ =>
    ⟨draws_of_plotAll rfl fun _ _ => mem_rectPts_fill, draws_of_plotAll rfl fun _ _ => mem_rectPts_outline⟩

/-! ## Bars (R145) -/

theorem mem_barPts {x1 y1 x2 y2 w : Int} {q : Int × Int} :
    q ∈ barPts x1 y1 x2 y2 w ↔ ∃ p ∈ linePts x1 y1 x2 y2, ∃ j : Int, -(w / 2) ≤ j ∧ j < w / 2 + w % 2 ∧
      q = if axisDist y1 y2 ≤ axisDist x1 x2 then (p.1, p.2 + j) else (p.1 + j, p.2) := by
  simp only [barPts, barOffsets, List.mem_flatMap, List.mem_map, mem_intRange, xMajor_iff, Int.le_sub_one_iff,
    and_assoc, eq_comm (a := q)]

/-- A bar of width 0 has no points. -/
theorem barPts_width_zero (x1 y1 x2 y2 : Int) : barPts x1 y1 x2 y2 0 = [] := by
  have hoffsets : barOffsets 0 = [] := rfl
  simp [barPts, hoffsets]

/-- A bar of width 1 has the one offset 0: it is the line. -/
theorem barPts_width_one (x1 y1 x2 y2 : Int) : barPts x1 y1 x2 y2 1 = linePts x1 y1 x2 y2 := by
  have hoffsets : barOffsets 1 = [0] := rfl
  simp [barPts, hoffsets]

/-- Settles O36: BAR plots the points of `barPts`, none for width 0 and those of the line for width 1. -/
theorem barPaintsOffsets : Obligations.BarPaintsOffsets := by
  refine fun s x1 y1 x2 y2 w on => ⟨draws_of_plotAll rfl fun x y => mem_barPts, ?_, ?_⟩
  · change Host.Outcome.next (s.setVram (plotAll (barPts _ _ _ _ 0) on s.vram)) = _
    rw [barPts_width_zero]
    rfl
  · change Host.Outcome.next (s.setVram (plotAll (barPts _ _ _ _ 1) on s.vram)) = _
    rw [barPts_width_one]
    rfl

end Sys2Proof.Proofs
end

section
/-!
Proofs of the rasterizer family, continued: the octant pairs of the midpoint circle, its points and its spans.
-/

namespace Sys2Proof.Proofs

open Sys2Proof.Machine Sys2Proof.Claims

/-! ## One pass of the circle loop (R146) -/

/-- The `b` of the next pass of the circle loop. -/
def circleNextB (b P : Int) : Int := if P < 0 then b else b - 1

/-- The decision variable of the next pass. -/
def circleNextP (a b P : Int) : Int := if P < 0 then P + 3 + 2 * a else P + 5 + 2 * (a - b)

theorem circleLoop_succ (fuel : Nat) (a b P : Int) :
    circleLoop (fuel + 1) a b P =
      (a, b) :: (if a + 1 ≤ circleNextB b P then circleLoop fuel (a + 1) (circleNextB b P) (circleNextP a b P)
        else []) := rfl

/-- What every pass of the loop meets: the pair is of the octant and on the circle to within half a pixel, and the
decision variable says whether `(a + 1, b)` still is, or `(a + 1, b − 1)`. -/
structure OnCircle (r a b P : Int) : Prop where
  nonneg : 0 ≤ a
  le : a ≤ b
  decision : P = (a + 1) * (a + 1) + (b * b - b) - r * r
  lower : r = 0 ∧ b = 0 ∨ b * b - b < r * r - a * a
  upper : r * r - a * a ≤ b * b + b

/-- For radius 0 the lower bound is met with equality. -/
theorem OnCircle.lower_le {r a b P : Int} (h : OnCircle r a b P) : b * b - b ≤ r * r - a * a := by
  rcases h.lower with ⟨rfl, rfl⟩ | hlower
  · obtain rfl : a = 0 := le_antisymm h.le h.nonneg
    exact le_rfl
  · exact hlower.le

/-- The loop starts at the top of the circle. -/
theorem OnCircle.start {r : Int} (h : 0 ≤ r) : OnCircle r 0 r (1 - r) where
  nonneg := le_rfl
  le := h
  decision := by ring
  lower := by
    rcases h.eq_or_lt with hzero | hpos
    · exact .inl ⟨hzero.symm, hzero.symm⟩
    · exact .inr (by linarith)
  upper := by linarith

/-- With `P < 0` the pixel beside is the nearest to the circle. -/
theorem OnCircle.beside {r a b P : Int} (h : OnCircle r a b P) (hP : P < 0) (hle : a + 1 ≤ b) :
    OnCircle r (a + 1) b (P + 3 + 2 * a) where
  nonneg := by linarith [h.nonneg]
  le := hle
  decision := by rw [h.decision]; ring
  lower := .inr (by linarith [h.decision])
  upper := by linarith [h.upper, h.nonneg]

/-- With `0 ≤ P` the pixel beside and below is. -/
theorem OnCircle.below {r a b P : Int} (h : OnCircle r a b P) (hP : 0 ≤ P) (hle : a + 1 ≤ b - 1) :
    OnCircle r (a + 1) (b - 1) (P + 5 + 2 * (a - b)) where
  nonneg := by linarith [h.nonneg]
  le := hle
  decision := by rw [h.decision]; ring
  lower := by
    rcases h.lower with ⟨-, hb⟩ | hlower
    · linarith [h.nonneg]
    · exact .inr (by linarith)
  upper := by linarith [h.decision]

theorem OnCircle.next {r a b P : Int} (h : OnCircle r a b P) (hle : a + 1 ≤ circleNextB b P) :
    OnCircle r (a + 1) (circleNextB b P) (circleNextP a b P) := by
  unfold circleNextB circleNextP at *
  split at hle
  next hP => simpa only [if_pos hP] using h.beside hP hle
  next hP => simpa only [if_neg hP] using h.below (not_lt.mp hP) hle

/-- The loop ends on the diagonal or one pixel before it, on a pass with `0 ≤ P`. -/
theorem OnCircle.end_of_lt {r a b P : Int} (h : OnCircle r a b P) (hend : circleNextB b P < a + 1) :
    0 ≤ P ∧ b ≤ a + 1 := by
  unfold circleNextB at hend
  split at hend
  next hP =>
    have hdiag : b = a := by linarith [h.le]
    subst hdiag
    linarith [h.decision, h.upper]
  next hP => exact ⟨not_lt.mp hP, by linarith⟩

/-- After the end no pair of the octant with the next `a` is on the circle. -/
theorem OnCircle.no_next {r a b P : Int} (h : OnCircle r a b P) (hP : 0 ≤ P) (hend : b ≤ a + 1) {b' : Int}
    (hle : a + 1 ≤ b') : ¬b' * b' - b' < r * r - (a + 1) * (a + 1) := by
  have hb : 0 ≤ b := h.nonneg.trans h.le
  have hmono : b * b - b ≤ b' * b' - b' := by nlinarith [h.nonneg]
  linarith [h.decision]

/-! ## The pairs of the loop (R146) -/

/-- Every pair is that of a pass, and `a` counts the passes. -/
theorem getElem?_circleLoop {r : Int} (fuel : Nat) {a b P : Int} (h : OnCircle r a b P) {n : Nat} {a' b' : Int}
    (hn : (circleLoop fuel a b P)[n]? = some (a', b')) : a' = a + n ∧ ∃ P', OnCircle r a' b' P' := by
  induction fuel generalizing a b P n with
  | zero => simp [circleLoop] at hn
  | succ fuel ih =>
    rw [circleLoop_succ] at hn
    cases n with
    | zero =>
      obtain ⟨rfl, rfl⟩ : a = a' ∧ b = b' := by simpa using hn
      exact ⟨by simp, P, h⟩
    | succ n =>
      rw [List.getElem?_cons_succ] at hn
      split at hn
      next hle =>
        obtain ⟨ha, hcircle⟩ := ih (h.next hle) hn
        exact ⟨by rw [ha, Nat.cast_add_one]; ring, hcircle⟩
      next => simp at hn

/-- With enough fuel the last pair is that of the pass the loop ends on. -/
theorem getLast?_circleLoop {r : Int} (fuel : Nat) {a b P : Int} (h : OnCircle r a b P) (hfuel : b - a < fuel)
    {a' b' : Int} (hlast : (circleLoop fuel a b P).getLast? = some (a', b')) :
    ∃ P', OnCircle r a' b' P' ∧ circleNextB b' P' < a' + 1 := by
  induction fuel generalizing a b P with
  | zero => simp [circleLoop] at hlast
  | succ fuel ih =>
    rw [circleLoop_succ] at hlast
    split at hlast
    next hle =>
      have hnext : circleNextB b P ≤ b := by
        unfold circleNextB
        split <;> omega
      push_cast at hfuel
      obtain ⟨left, rfl⟩ : ∃ left, fuel = left + 1 := Nat.exists_eq_succ_of_ne_zero (by omega)
      refine ih (h.next hle) (by omega) ?_
      rw [circleLoop_succ, List.getLast?_cons_cons, ← circleLoop_succ] at hlast
      exact hlast
    next hend =>
      obtain ⟨rfl, rfl⟩ : a = a' ∧ b = b' := by simpa using hlast
      exact ⟨P, h, not_le.mp hend⟩

theorem onCircle_of_mem {r : Int} (h : 0 ≤ r) {p : Int × Int} (hp : p ∈ circleSteps r) :
    ∃ P, OnCircle r p.1 p.2 P := by
  obtain ⟨n, hn⟩ := List.mem_iff_getElem?.mp hp
  exact (getElem?_circleLoop _ (.start h) hn).2

/-- Settles O37: `OnCircle` holds at every pass. -/
theorem circleStepsFollowTheCircle : Obligations.CircleStepsFollowTheCircle := by
  intro r
  have hstart : OnCircle (r : Int) 0 r (1 - r) := .start (Int.natCast_nonneg r)
  refine ⟨rfl, fun n a b hn => ?_, fun a b hlast => ?_⟩
  · obtain ⟨ha, P, h⟩ := getElem?_circleLoop _ hstart hn
    exact ⟨by rw [ha, zero_add], h.le, h.lower_le, fun hr => h.lower.resolve_left (by omega), h.upper⟩
  · obtain ⟨P, h, hpass⟩ := getLast?_circleLoop _ hstart (by simp) hlast
    obtain ⟨hP, hend⟩ := h.end_of_lt hpass
    exact ⟨hend, fun b' hle => h.no_next hP hend hle⟩

/-! ## The points and the spans of a pair (R147) -/

/-- A coordinate at distance `d`. -/
theorem axisDist_eq_iff {c x d : Int} (h : 0 ≤ d) : axisDist c x = d ↔ x = c + d ∨ x = c - d := by
  rw [axisDist]
  omega

theorem between_sub_add_iff {c x d : Int} (h : 0 ≤ d) : between (c - d) (c + d) x ↔ axisDist c x ≤ d := by
  simp only [between, axisDist]
  omega

theorem mem_circleStepPts_outline {cx cy a b x y : Int} (ha : 0 ≤ a) (hb : 0 ≤ b) :
    (x, y) ∈ circleStepPts cx cy false (a, b) ↔
      (axisDist cx x = a ∧ axisDist cy y = b) ∨ (axisDist cx x = b ∧ axisDist cy y = a) := by
  simp only [circleStepPts, Bool.false_eq_true, if_false, List.mem_cons, List.not_mem_nil, or_false, Prod.mk.injEq,
    axisDist_eq_iff ha, axisDist_eq_iff hb, or_and_right, and_or_left]
  simp only [or_assoc, or_comm, or_left_comm]

theorem mem_circleStepPts_fill {cx cy a b x y : Int} (ha : 0 ≤ a) (hb : 0 ≤ b) :
    (x, y) ∈ circleStepPts cx cy true (a, b) ↔
      (axisDist cx x ≤ a ∧ axisDist cy y = b) ∨ (axisDist cx x ≤ b ∧ axisDist cy y = a) := by
  simp only [circleStepPts, if_true, List.mem_append, mem_linePts_horizontal, between_sub_add_iff ha,
    between_sub_add_iff hb, axisDist_eq_iff ha, axisDist_eq_iff hb]
  tauto

/-- The points of a circle, given those of each pair of its octant. -/
theorem mem_circlePts_iff {cx cy r x y : Int} {fill : Bool} {covers : Int × Int → Prop} (hr : 0 ≤ r)
    (h : ∀ a b, 0 ≤ a → 0 ≤ b → ((x, y) ∈ circleStepPts cx cy fill (a, b) ↔ covers (a, b))) :
    (x, y) ∈ circlePts cx cy r fill ↔ ∃ p ∈ circleSteps r, covers p := by
  rw [circlePts, List.mem_flatMap]
  refine exists_congr fun p => and_congr_right fun hp => ?_
  obtain ⟨P, hcircle⟩ := onCircle_of_mem hr hp
  exact h p.1 p.2 hcircle.nonneg (hcircle.nonneg.trans hcircle.le)

/-- Settles O38: CIRCLE plots the points of every pair, whose coordinates are not negative. -/
theorem circleDrawsPointsOrSpans : Obligations.CircleDrawsPointsOrSpans := by
  intro s cx cy r on
  have hr : 0 ≤ coord r := Int.natCast_nonneg _
  exact ⟨draws_of_plotAll rfl fun x y => mem_circlePts_iff hr fun a b ha hb => mem_circleStepPts_outline ha hb,
    draws_of_plotAll rfl fun x y => mem_circlePts_iff hr fun a b ha hb => mem_circleStepPts_fill ha hb⟩

/-! ## The outline inside the fill (R147) -/

theorem first_mem_linePts (x1 y1 x2 y2 : Int) : (x1, y1) ∈ linePts x1 y1 x2 y2 :=
  List.mem_of_head? (head?_linePts x1 y1 x2 y2)

theorem last_mem_linePts (x1 y1 x2 y2 : Int) : (x2, y2) ∈ linePts x1 y1 x2 y2 :=
  List.mem_of_getLast? (getLast?_linePts x1 y1 x2 y2)

/-- Each of the 8 points of a pair is an end of one of its four spans. -/
theorem circleStepPts_outline_subset_fill (cx cy : Int) (p : Int × Int) :
    circleStepPts cx cy false p ⊆ circleStepPts cx cy true p := by
  intro q hq
  simp only [circleStepPts, Bool.false_eq_true, if_false, List.mem_cons, List.not_mem_nil, or_false] at hq
  simp only [circleStepPts, if_true, List.mem_append]
  rcases hq with rfl | rfl | rfl | rfl | rfl | rfl | rfl | rfl <;>
    simp only [first_mem_linePts, last_mem_linePts, true_or, or_true]

/-- Settles O39, pair by pair. -/
theorem circleOutlineInsideFill : Obligations.CircleOutlineInsideFill := by
  intro cx cy r p hp
  obtain ⟨q, hq, hpq⟩ := List.mem_flatMap.mp hp
  exact List.mem_flatMap.mpr ⟨q, hq, circleStepPts_outline_subset_fill cx cy q hpq⟩

end Sys2Proof.Proofs
end

section
/-!
Proofs of the text family: runs of columns, the cursor's moves, the character step, strings and large digits.
-/

namespace Sys2Proof.Proofs

open Sys2Proof.Machine Sys2Proof.Claims

/-! ## The cursor (R181, R182, R186) -/

theorem rowAbove_eq {row : Nat} (h : row ≤ 5) : rowAbove row = if row = 0 then 5 else row - 1 := by
  unfold rowAbove
  split <;> omega

theorem advanceCursor_eq (w : Nat) (s : State) :
    s.advanceCursor w = s.setCursor (advancedCol s.curCol w) (advancedRow s.curCol s.curRow w) := by
  rcases advanceCursor_cases w s with ⟨hfits, heq⟩ | ⟨hwraps, heq⟩
  · rw [heq, advancedCol, advancedRow, if_neg (by omega), if_neg (by omega)]
  · rw [heq, advancedCol, advancedRow, if_pos (by omega), if_pos (by omega), rowBelow]

/-- Settles O40: both bounds of R181 are minima. -/
theorem gotoXYSaturates : Obligations.GotoXYSaturates := by
  refine fun s col row => ⟨_, _, rfl, ?_, ?_⟩
  · unfold cursorOperand
    split <;> omega
  · unfold cursorOperand
    split <;> omega

/-! ## Runs of columns (R180) -/

/-- A run of columns, written, is a replacement of the columns it covers. -/
theorem columnsReplaced_putCols {bs : List Byte} {w : Nat} {byte : Nat → Byte} (hl : bs.length = w)
    (hb : ∀ k, k < w → bs[k]? = some (byte k)) (p c : Nat) (v : Vram) :
    ColumnsReplaced p c w byte v (putCols p c bs v) := by
  intro q d hq hd
  rw [vramRead_putCols hq hd, hl]
  refine ite_congr rfl (fun hin => ?_) fun _ => rfl
  rw [hb (d - c) (by omega), Option.getD_some]

theorem columnsReplaced_putCols_map_range (byte : Nat → Byte) (w p c : Nat) (v : Vram) :
    ColumnsReplaced p c w byte v (putCols p c ((List.range w).map byte) v) :=
  columnsReplaced_putCols (by simp) (fun k hk => by simp [hk]) p c v

theorem columnsReplaced_putCols_replicate (b : Byte) (w p c : Nat) (v : Vram) :
    ColumnsReplaced p c w (fun _ => b) v (putCols p c (List.replicate w b) v) :=
  columnsReplaced_putCols (by simp) (fun k hk => by simp [hk]) p c v

/-! ## DRAWCHAR, an equation for each kind of code (R182, R183) -/

theorem exec_drawChar (code : Byte) (s : State) : exec (.drawChar code) s = .next (charStep code s) := rfl

theorem exec_drawChar_newline (s : State) : exec (.drawChar 0x0A) s = .next (s.setCursor 0 (rowBelow s.curRow)) := rfl

theorem exec_drawChar_backspace {s : State} {c r : Nat} (h : s.cursorBack = s.setCursor c r) :
    exec (.drawChar 0x08) s =
      .next ((s.setVram (putCols r c (List.replicate 6 0x00#8) s.vram)).setCursor c r) := by
  rw [exec_drawChar, charStep, if_neg (by decide), if_pos (by decide), h]
  rfl

theorem printable_iff {code : Byte} : printable code = true ↔ 0x20 ≤ code.toNat ∧ code.toNat ≤ 0x7F :=
  decide_eq_true_iff

theorem exec_drawChar_printable {code : Byte} (h : printable code = true) (s : State) :
    exec (.drawChar code) s = .next ((s.putColsAtCursor (glyphCell s.params code)).advanceCursor 6) := by
  have hrange := printable_iff.mp h
  have hnewline : code ≠ 0x0A#8 := by rintro rfl; exact absurd hrange (by decide)
  have hback : code ≠ 0x08#8 := by rintro rfl; exact absurd hrange (by decide)
  rw [exec_drawChar, charStep, if_neg hnewline, if_neg hback, if_pos h]

theorem exec_drawChar_dropped {code : Byte} (hnewline : code ≠ 0x0A#8) (hback : code ≠ 0x08#8)
    (h : ¬printable code = true) (s : State) : exec (.drawChar code) s = .next s := by
  rw [exec_drawChar, charStep, if_neg hnewline, if_neg hback, if_neg h]

/-- Settles O41: the codes outside the domain of the glyph table are the dropped ones. -/
theorem drawCharNewlineOrDropped : Obligations.DrawCharNewlineOrDropped := by
  refine fun s => ⟨exec_drawChar_newline s, fun code hnewline hback hcode => ?_⟩
  exact exec_drawChar_dropped hnewline hback (fun hp => by have := printable_iff.mp hp; omega) s

/-- Settles O42, with a cell to the left of the cursor and without one. -/
theorem drawCharBackspace : Obligations.DrawCharBackspace := by
  intro s hrow
  have hblank := columnsReplaced_putCols_replicate 0x00#8 6
  rcases cursorBack_cases s with ⟨hcol, heq⟩ | ⟨hcol, heq⟩
  · exact ⟨_, _, _, exec_drawChar_backspace heq, (if_pos hcol).symm, (if_pos hcol).symm, hblank _ _ _⟩
  · have hcol' : ¬6 ≤ s.curCol := by omega
    refine ⟨_, _, _, exec_drawChar_backspace heq, (if_neg hcol').symm, ?_, hblank _ _ _⟩
    rw [if_neg hcol', rowAbove_eq hrow]

theorem getElem?_glyphCell (p : Params) (code : Byte) {k : Nat} (hk : k < 6) :
    (glyphCell p code)[k]? = some (if k = 5 then 0x00#8 else glyphByte p code k) := by
  unfold glyphCell
  by_cases h5 : k = 5
  · subst h5
    rfl
  · have hlt : k < 5 := by omega
    rw [List.getElem?_append_left (by simpa using hlt), if_neg h5]
    simp [hlt]

/-- Settles O43: the cell is a run of 6 columns, and the advance of 6 finds the cursor where it was. -/
theorem drawCharPrintable : Obligations.DrawCharPrintable := by
  intro s code hlo hhi
  refine ⟨putCols s.curRow s.curCol (glyphCell s.params code) s.vram, ?_,
    columnsReplaced_putCols rfl (fun k hk => getElem?_glyphCell s.params code hk) _ _ _⟩
  rw [exec_drawChar_printable (printable_iff.mpr ⟨hlo, hhi⟩), advanceCursor_eq]
  rfl

/-! ## DRAWSTRING (R184) -/

theorem drawEach_eq (cs : List Byte) (s : State) : drawEach cs s = .next (drawChars cs s) := by
  induction cs generalizing s with
  | nil => rfl
  | cons c cs ih => exact ih (charStep c s)

theorem exec_drawString (s : State) :
    exec .drawString s = .next (drawStringFrom (encodeWord .drawString) s.cmd s) := rfl

/-- Settles O44: DRAWSTRING reaches the terminator in the state that drawing the characters gives. -/
theorem drawStringIsDrawCharEach : Obligations.DrawStringIsDrawCharEach := by
  intro s text rest h0 hcmd
  refine ⟨drawChars text s, drawEach_eq text s, ?_⟩
  rw [exec_drawString, hcmd, drawStringFrom_append h0, drawStringFrom, if_pos rfl]

/-! ## The large-digit alphabet (R31, R32, R185) -/

theorem largeSymbol_of_digit {code : Byte} (h : 0x30 ≤ code.toNat ∧ code.toNat ≤ 0x39) :
    largeSymbol code = some (.digit ⟨code.toNat - 0x30, by omega⟩) := by
  have hne : ∀ b : Byte, b.toNat < 0x30 → code ≠ b := by rintro b hb rfl; omega
  rw [largeSymbol, if_neg (hne _ (by decide)), if_neg (hne _ (by decide)), if_neg (hne _ (by decide)), dif_pos h]

theorem largeSymbol_of_badGlyphCode {code : Byte} (h : badGlyphCode code) : largeSymbol code = none := by
  obtain ⟨hminus, hdot, hspace, hdigit⟩ := h
  rw [largeSymbol, if_neg hminus, if_neg hdot, if_neg hspace, dif_neg hdigit]

/-- Settles O45: each of the three signs, the digits, and the codes outside the alphabet. -/
theorem largeSymbolAlphabet : Obligations.LargeSymbolAlphabet := by
  intro code
  by_cases hminus : code = 0x2D#8
  · subst hminus; decide
  by_cases hdot : code = 0x2E#8
  · subst hdot; decide
  by_cases hspace : code = 0x20#8
  · subst hspace; decide
  by_cases hdigit : 0x30 ≤ code.toNat ∧ code.toNat ≤ 0x39
  · rw [largeSymbol_of_digit hdigit]
    refine ⟨iff_of_false nofun hminus, iff_of_false nofun hdot, iff_of_false nofun hspace, fun d => ?_,
      iff_of_false nofun fun ⟨_, _, _, hnot⟩ => hnot hdigit⟩
    simp only [Option.some.injEq, LargeSymbol.digit.injEq, Fin.ext_iff]
    omega
  · have hbad : badGlyphCode code := ⟨hminus, hdot, hspace, hdigit⟩
    rw [largeSymbol_of_badGlyphCode hbad]
    exact ⟨iff_of_false nofun hminus, iff_of_false nofun hdot, iff_of_false nofun hspace,
      fun d => iff_of_false nofun (by omega), iff_of_true rfl hbad⟩

/-- The codes of the alphabet, with the position and the width of their patterns. -/
theorem largeSymbol_of_mem_largeAlphabet : ∀ p ∈ largeAlphabet,
    (largeSymbol p.1).map (fun sym => (largePosition sym, largeWidth sym)) =
      some (p.2, if p.1 = 0x2E#8 then 5 else 10) := by decide

/-! ## DRAWLARGE (R186, R281, R287) -/

theorem putLarge_eq (upper lower : List Byte) (w : Nat) (s : State) :
    s.putLarge upper lower w =
      (s.setVram (putCols (s.curRow + 1) s.curCol lower (putCols s.curRow s.curCol upper s.vram))).setCursor
        (advancedCol s.curCol w) (advancedRow s.curCol s.curRow w) :=
  advanceCursor_eq w _

theorem exec_drawLarge (code : Byte) (s : State) : exec (.drawLarge code) s = execDrawLarge code s := rfl

theorem exec_drawLarge_of_some {code : Byte} {sym : LargeSymbol} (h : largeSymbol code = some sym) (s : State) :
    exec (.drawLarge code) s =
      .next (s.putLarge (largeUpper s.params sym) (largeLower s.params sym) (largeWidth sym)) := by
  rw [exec_drawLarge, execDrawLarge, h]

theorem exec_drawLarge_of_none {code : Byte} (h : largeSymbol code = none) (s : State) :
    exec (.drawLarge code) s = .next s.badLarge := by
  rw [exec_drawLarge, execDrawLarge, h]

theorem badLarge_of_blank {s : State} (h : s.params.badGlyph = .blank) :
    s.badLarge = (s.raise .badGlyph).putLarge (List.replicate 10 0x00#8) (List.replicate 10 0x00#8) 10 := by
  rw [State.badLarge, h]

theorem badLarge_of_fault {s : State} (h : s.params.badGlyph = .fault) :
    s.badLarge = (s.raise .badGlyph).setFaultMark true := by
  rw [State.badLarge, h]

/-- Settles O46: the columns of each page are a run as wide as the symbol. -/
theorem drawLargeWritesTwoPages : Obligations.DrawLargeWritesTwoPages := by
  intro s code pos w hmem hw
  obtain ⟨sym, hsym, hrow⟩ := Option.map_eq_some_iff.mp (largeSymbol_of_mem_largeAlphabet _ hmem)
  obtain ⟨rfl, hwidth⟩ := Prod.mk.inj hrow
  rw [← hwidth] at hw
  subst hw
  refine ⟨_, _, by rw [exec_drawLarge_of_some hsym, putLarge_eq], columnsReplaced_putCols_map_range _ _ _ _ _, ?_⟩
  simp only [Nat.add_assoc (_ * 20)]
  exact columnsReplaced_putCols_map_range _ _ _ _ _

/-- In a legal `STATUS` the reserved bits are 0, so an error leaves nothing of it but a kept error. -/
theorem statusRaise_eq_statusAfter {st : Byte} (h : statusLegal st = true) (e : CmdError) :
    statusRaise e st = statusAfter (errorCode e) st := by
  obtain ⟨hreserved, -⟩ := Bool.and_eq_true_iff.mp h
  rw [statusRaise, statusAfter, eq_of_beq hreserved, statusErr]

/-- Settles O47: under the policy `blank` a large cell of zeros is drawn after the error was raised. -/
theorem drawLargeBadGlyph : Obligations.DrawLargeBadGlyph := by
  intro s code hlegal hbad
  have hraise : s.raise .badGlyph = s.setStatus (statusAfter 3#4 s.status) :=
    congrArg s.setStatus (statusRaise_eq_statusAfter hlegal .badGlyph)
  rw [exec_drawLarge_of_none (largeSymbol_of_badGlyphCode hbad)]
  constructor
  · intro hpolicy
    have hblank := columnsReplaced_putCols_replicate 0x00#8 10
    refine ⟨_, _, ?_, hblank _ _ _, hblank _ _ _⟩
    rw [badLarge_of_blank hpolicy, hraise, putLarge_eq]
    rfl
  · intro hpolicy
    rw [badLarge_of_fault hpolicy, hraise]

end Sys2Proof.Proofs
end

section
/-!
Proofs of the EEPROM family: transactions whose events the plan lets pass, runs of transactions, what each command
does on a bus that works, and where it stops on one that gets stuck or is not enabled.
-/

namespace Sys2Proof.Proofs

open Sys2Proof.Machine Sys2Proof.Claims

/-! ## Addresses and events (R64, R221, R222) -/

theorem addrAfter_addrAfter (a : Addr) (m k : Nat) : addrAfter (addrAfter a m) k = addrAfter a (m + k) := by
  simp only [addrAfter]
  bv_omega

theorem nextAddr_addrAfter (a : Addr) (k : Nat) : nextAddr (addrAfter a k) = addrAfter a (k + 1) :=
  addrAfter_addrAfter a k 1

/-- Going round all 2^16 addresses comes back to the first. -/
theorem addrAfter_65536 (a : Addr) : addrAfter a 65536 = a := BitVec.add_zero a

theorem readEvents_eq_readTrace (p : Params) (a : Addr) (d : Byte) : readEvents p a d = readTrace p a d := by
  rw [readEvents, selector_eq_selectorByte]
  rfl

/-! ## A plan that lets events complete (R67, R232, R310) -/

/-- The next `n` bus events complete under the plan. -/
def letsPass (n : Nat) : PortPlan → Prop
  | .free => True
  | .stuckAfter m => n ≤ m
  | .resetAfter m => n ≤ m

/-- What is left of a plan after `n` events it lets pass. -/
def planAfter (n : Nat) : PortPlan → PortPlan
  | .free => .free
  | .stuckAfter m => .stuckAfter (m - n)
  | .resetAfter m => .resetAfter (m - n)

theorem planAfter_zero (p : PortPlan) : planAfter 0 p = p := by cases p <;> rfl

theorem planAfter_planAfter (m n : Nat) (p : PortPlan) : planAfter n (planAfter m p) = planAfter (m + n) p := by
  cases p <;> simp only [planAfter, Nat.sub_sub]

theorem letsPass_add {m n : Nat} {p : PortPlan} :
    letsPass (m + n) p ↔ letsPass m p ∧ letsPass n (planAfter m p) := by
  cases p with
  | free => exact iff_of_true trivial ⟨trivial, trivial⟩
  | stuckAfter k | resetAfter k => simp only [letsPass, planAfter]; omega

theorem letsPass_of_free {p : PortPlan} (h : p = .free) (n : Nat) : letsPass n p := by
  rw [h]; trivial

theorem letsPass_of_stuckAfter {p : PortPlan} {m n : Nat} (h : p = .stuckAfter m) (hn : n ≤ m) : letsPass n p := by
  rw [h]; exact hn

/-- Events that the plan lets pass are recorded and counted down, and nothing else happens. -/
theorem drive_eepromBus_of_letsPass {s : State} {es : List PortEvent} (hb : s.busEnabled = true)
    (h : letsPass es.length s.portPlan) :
    s.drive .eepromBus es = ((s.logPorts es).setPortPlan (planAfter es.length s.portPlan), none) := by
  rw [drive_enabled hb]
  unfold State.driveEnabled
  cases hp : s.portPlan with
  | free =>
    change (s.logPorts es, none) = ((s.logPorts es).setPortPlan .free, none)
    rw [← hp]
    rfl
  | stuckAfter m | resetAfter m =>
    rw [hp] at h
    exact if_pos h

/-! ## One transaction that completes (R72, R222, R223) -/

/-- The state after a write transaction that completed. -/
def writeDone (a : Addr) (d : Byte) (s : State) : State :=
  ((s.logPorts (writeEvents s.params a d)).setPortPlan (planAfter 7 s.portPlan)).deviceStore a d

theorem eeWrite_of_letsPass {s : State} (hb : s.busEnabled = true) (h : letsPass 7 s.portPlan) (a : Addr)
    (d : Byte) : s.eeWrite a d = (writeDone a d s, true) := by
  rw [State.eeWrite, drive_eepromBus_of_letsPass (es := writeEvents s.params a d) hb h]
  rfl

theorem eeRead_of_letsPass {s : State} (hb : s.busEnabled = true) (hd : s.device = .present)
    (h : letsPass 9 s.portPlan) (a : Addr) :
    s.eeRead a =
      ((s.logPorts (readTrace s.params a (s.eeByte a))).setPortPlan (planAfter 9 s.portPlan), some (s.eeByte a)) := by
  rw [State.eeRead, countReply_present hd, busReply_present hd,
    drive_eepromBus_of_letsPass (es := readEvents s.params a (s.eeByte a)) hb h,
    readEvents_eq_readTrace]
  rfl

/-! ## Runs of write transactions (R228, R230) -/

/-- The state after write transactions of the bytes of a list from address `a` on, all of which completed. -/
def writeRun : Addr → List Byte → State → State
  | _, [], s => s
  | a, b :: bs, s => writeRun (nextAddr a) bs (writeDone a b s)

theorem writeDone_setCmd (a : Addr) (d : Byte) (c : List Byte) (s : State) :
    writeDone a d (s.setCmd c) = (writeDone a d s).setCmd c := rfl

theorem writeRun_setCmd (a : Addr) (bs c : List Byte) (s : State) :
    writeRun a bs (s.setCmd c) = (writeRun a bs s).setCmd c := by
  induction bs generalizing a s with
  | nil => rfl
  | cons b bs ih => rw [writeRun, writeDone_setCmd, ih]; rfl

theorem writeRun_frame (a : Addr) (bs : List Byte) (s : State) :
    writeRun a bs s = { s with
      ports := (writeRun a bs s).ports
      portPlan := planAfter (7 * bs.length) s.portPlan
      ee := (writeRun a bs s).ee } := by
  induction bs generalizing a s with
  | nil => rw [List.length_nil, Nat.mul_zero, planAfter_zero]; rfl
  | cons b bs ih =>
    have hlen : 7 * (b :: bs).length = 7 + 7 * bs.length := by rw [List.length_cons]; omega
    rw [writeRun, ih, hlen, ← planAfter_planAfter]
    rfl

theorem writeRun_ports_length (a : Addr) (bs : List Byte) (s : State) :
    (writeRun a bs s).ports.length = s.ports.length + 7 * bs.length := by
  induction bs generalizing a s with
  | nil => rfl
  | cons b bs ih =>
    have hone : (writeDone a b s).ports.length = s.ports.length + 7 := List.length_append
    rw [writeRun, ih, hone, List.length_cons]
    omega

/-- With no device nothing is stored (R224, entry 7). -/
theorem writeRun_ee_of_silent {s : State} (hd : s.device = .silent) (a : Addr) (bs : List Byte) :
    (writeRun a bs s).ee = s.ee := by
  induction bs generalizing a s with
  | nil => rfl
  | cons b bs ih =>
    have hone : writeDone a b s =
        (s.logPorts (writeEvents s.params a b)).setPortPlan (planAfter 7 s.portPlan) :=
      deviceStore_silent (s := (s.logPorts _).setPortPlan _) hd a b
    rw [writeRun, hone]
    exact ih (s := (s.logPorts _).setPortPlan _) hd _

theorem storeBytes_setPortPlan (a : Addr) (bs : List Byte) (p : PortPlan) (s : State) :
    storeBytes a bs (s.setPortPlan p) = (storeBytes a bs s).setPortPlan p := by
  induction bs generalizing a s with
  | nil => rfl
  | cons b bs ih => exact ih (nextAddr a) ((s.logPorts (writeEvents s.params a b)).eeStore a b)

/-- With a device every byte is stored (R72). -/
theorem writeRun_of_present {s : State} (hd : s.device = .present) (a : Addr) (bs : List Byte) :
    writeRun a bs s = (storeBytes a bs s).setPortPlan (planAfter (7 * bs.length) s.portPlan) := by
  induction bs generalizing a s with
  | nil => rw [List.length_nil, Nat.mul_zero, planAfter_zero]; rfl
  | cons b bs ih =>
    have hone : writeDone a b s =
        ((s.logPorts (writeEvents s.params a b)).eeStore a b).setPortPlan (planAfter 7 s.portPlan) :=
      deviceStore_present (s := (s.logPorts (writeEvents s.params a b)).setPortPlan _) hd a b
    have hlen : 7 * (b :: bs).length = 7 + 7 * bs.length := by rw [List.length_cons]; omega
    have hdev : (writeDone a b s).device = .present := by rw [hone]; exact hd
    rw [writeRun, ih hdev, hone, storeBytes_setPortPlan, hlen, ← planAfter_planAfter]
    rfl

theorem writeRun_of_busWorks {s : State} (hbus : busWorks s) (a : Addr) (bs : List Byte) :
    writeRun a bs s = storeBytes a bs s := by
  obtain ⟨-, hplan, hdev, -⟩ := hbus
  have hfree : (storeBytes a bs s).portPlan = .free := by rw [storeBytes_frame]; exact hplan
  rw [writeRun_of_present hdev, hplan, planAfter, ← hfree]
  rfl

/-- EE_ZERO over the first `n` addresses of its range (R230). -/
theorem eeZeroFrom_run {s : State} {n : Nat} (hb : s.busEnabled = true) (h : letsPass (7 * n) s.portPlan)
    (cw : CmdWord) (left : Nat) (a : Addr) :
    eeZeroFrom cw (n + left) a s = eeZeroFrom cw left (addrAfter a n) (writeRun a (List.replicate n 0x00#8) s) := by
  induction n generalizing a s with
  | zero => rw [Nat.zero_add, addrAfter_zero]; rfl
  | succ n ih =>
    have hevents : 7 * (n + 1) = 7 + 7 * n := by omega
    rw [hevents, letsPass_add] at h
    rw [Nat.add_right_comm, eeZeroFrom, eeWrite_of_letsPass hb h.1, List.replicate_succ, writeRun,
      ← addrAfter_nextAddr]
    exact ih (s := writeDone a 0x00#8 s) hb h.2 _

/-- EE_WRITESTR over bytes of its text (R228). -/
theorem eeWriteStrFrom_text {s : State} {bs rest : List Byte} (hb : s.busEnabled = true)
    (h : letsPass (7 * bs.length) s.portPlan) (h0 : 0x00#8 ∉ bs) (hc : s.cmd = bs ++ rest) (cw : CmdWord) (left : Nat)
    (a : Addr) :
    eeWriteStrFrom cw (bs.length + left) a false s =
      eeWriteStrFrom cw left (addrAfter a bs.length) false ((writeRun a bs s).setCmd rest) := by
  induction bs generalizing a s with
  | nil =>
    rw [List.nil_append] at hc
    rw [List.length_nil, Nat.zero_add, ← hc, addrAfter_zero]
    rfl
  | cons b bs ih =>
    obtain ⟨hb0, h0⟩ := not_or.mp (mt List.mem_cons.mpr h0)
    have hevents : 7 * (b :: bs).length = 7 + 7 * bs.length := by rw [List.length_cons]; omega
    rw [hevents, letsPass_add] at h
    have hwrite := eeWrite_of_letsPass (s := s.setCmd (bs ++ rest)) hb h.1 a b
    rw [List.length_cons, Nat.add_right_comm, eeWriteStrFrom_of_written hc (Ne.symm hb0) hwrite,
      ih (s := writeDone a b (s.setCmd (bs ++ rest))) hb h.2 h0 rfl, addrAfter_nextAddr, writeDone_setCmd,
      writeRun_setCmd]
    rfl

theorem zero_notMem_takeWhile (bs : List Byte) : 0x00#8 ∉ bs.takeWhile (· ≠ 0x00#8) := fun h => by
  simpa using List.mem_takeWhile_imp h

/-- A payload is its text, or its text, a 0x00 and bytes that are not written (R228). -/
theorem payload_cases (bs : List Byte) :
    bs = bs.takeWhile (· ≠ 0x00#8) ∨ ∃ rest, bs = bs.takeWhile (· ≠ 0x00#8) ++ 0x00#8 :: rest := by
  induction bs with
  | nil => exact .inl rfl
  | cons b bs ih =>
    by_cases hb : b = 0x00#8
    · subst hb; exact .inr ⟨bs, rfl⟩
    · rw [List.takeWhile_cons_of_pos (by simpa using hb)]
      exact ih.imp (congrArg (b :: ·)) fun ⟨rest, h⟩ => ⟨rest, congrArg (b :: ·) h⟩

/-- EE_WRITESTR takes payload bytes whose text the plan lets it write: it writes the text and consumes all. -/
theorem eeWriteStrFrom_payload_of_letsPass {s : State} {bs rest : List Byte} (hb : s.busEnabled = true)
    (h : letsPass (7 * (bs.takeWhile (· ≠ 0x00#8)).length) s.portPlan) (hc : s.cmd = bs ++ rest) (cw : CmdWord)
    (left : Nat) (a : Addr) :
    ∃ stopped, eeWriteStrFrom cw (bs.length + left) a false s =
      eeWriteStrFrom cw left (addrAfter a (bs.takeWhile (· ≠ 0x00#8)).length) stopped
        ((writeRun a (bs.takeWhile (· ≠ 0x00#8)) s).setCmd rest) := by
  have h0 := zero_notMem_takeWhile bs
  have hcases := payload_cases bs
  generalize bs.takeWhile (· ≠ 0x00#8) = text at h h0 hcases ⊢
  obtain rfl | ⟨tail, rfl⟩ := hcases
  · exact ⟨false, eeWriteStrFrom_text hb h h0 hc ..⟩
  · have hlen : (text ++ 0x00#8 :: tail).length + left = text.length + (tail.length + left + 1) := by
      rw [List.length_append, List.length_cons]; omega
    rw [List.append_assoc] at hc
    refine ⟨true, ?_⟩
    rw [hlen, eeWriteStrFrom_text hb h h0 hc, eeWriteStrFrom_of_stopped (rest := tail ++ rest) rfl (.inr rfl)]
    exact eeWriteStrFrom_payload_stopped rfl

/-! ## Runs of read transactions (R229) -/

/-- The bytes of the `n` addresses from `a` on. -/
def eeBytes (a : Addr) (n : Nat) (s : State) : List Byte := (List.range n).map fun k => s.eeByte (addrAfter a k)

/-- The events of a read transaction for each of the `n` addresses from `a` on. -/
def readRunTrace (a : Addr) (n : Nat) (s : State) : List PortEvent :=
  (List.range n).flatMap fun k => readTrace s.params (addrAfter a k) (s.eeByte (addrAfter a k))

/-- The state after `n` addresses from `a` on were read, all transactions completed, and their bytes responded. -/
def readRun (a : Addr) (n : Nat) (s : State) : State :=
  ((s.respond (eeBytes a n s)).logPorts (readRunTrace a n s)).setPortPlan (planAfter (9 * n) s.portPlan)

/-- Neither 0x00 nor 0xFF: a byte after which EE_READSTR reads on. -/
abbrev isTextByte (b : Byte) : Prop := b ≠ 0x00#8 ∧ b ≠ 0xFF#8

theorem readRunTrace_length (a : Addr) (n : Nat) (s : State) : (readRunTrace a n s).length = 9 * n := by
  induction n with
  | zero => rfl
  | succ n ih =>
    have hlast : (readTrace s.params (addrAfter a n) (s.eeByte (addrAfter a n))).length = 9 := rfl
    rw [readRunTrace] at ih ⊢
    rw [List.range_succ, List.flatMap_append, List.length_append, ih, List.flatMap_singleton, hlast]
    omega

theorem readRun_zero (a : Addr) (s : State) : readRun a 0 s = s := by
  have hbytes : eeBytes a 0 s = [] := rfl
  have htrace : readRunTrace a 0 s = [] := rfl
  rw [readRun, planAfter_zero, State.respond, State.logPorts, hbytes, htrace, List.append_nil, List.append_nil]
  rfl

theorem readRun_device (a : Addr) (n : Nat) (s : State) : (readRun a n s).device = s.device := rfl

theorem readRun_setParser (a : Addr) (n : Nat) (p : Parser) (s : State) :
    readRun a n (s.setParser p) = (readRun a n s).setParser p := rfl

/-- A run of reads followed by another is one run. -/
theorem readRun_readRun (a : Addr) (m n : Nat) (s : State) :
    readRun (addrAfter a m) n (readRun a m s) = readRun a (m + n) s := by
  have hbytes : eeBytes a (m + n) s = eeBytes a m s ++ eeBytes (addrAfter a m) n s := by
    simp only [eeBytes, List.range_add, List.map_append, List.map_map, addrAfter_addrAfter]
    rfl
  have htrace : readRunTrace a (m + n) s = readRunTrace a m s ++ readRunTrace (addrAfter a m) n s := by
    simp only [readRunTrace, List.range_add, List.flatMap_append, List.flatMap_map, addrAfter_addrAfter]
  have hplan : 9 * (m + n) = 9 * m + 9 * n := by omega
  rw [readRun.eq_1 a (m + n), hbytes, htrace, hplan, ← planAfter_planAfter]
  simp only [readRun, State.respond, State.logPorts, State.setRsp, State.setPorts, State.setPortPlan, List.append_assoc]
  rfl

/-- A read that completes, its byte responded, is a run of one. -/
theorem readRun_one (a : Addr) (s : State) :
    readRun a 1 s = ((s.logPorts (readTrace s.params a (s.eeByte a))).setPortPlan
      (planAfter 9 s.portPlan)).respond [s.eeByte a] := by
  have hbytes : eeBytes a 1 s = [s.eeByte (addrAfter a 0)] := rfl
  have htrace : readRunTrace a 1 s = readTrace s.params (addrAfter a 0) (s.eeByte (addrAfter a 0)) := rfl
  rw [readRun, hbytes, htrace, addrAfter_zero]
  rfl

theorem eeReadStrFrom_of_textByte {s : State} {a : Addr} (hb : s.busEnabled = true) (hd : s.device = .present)
    (h : letsPass 9 s.portPlan) (ht : isTextByte (s.eeByte a)) (cw : CmdWord) (left : Nat) :
    eeReadStrFrom cw (left + 1) a s = eeReadStrFrom cw left (nextAddr a) (readRun a 1 s) := by
  rw [eeReadStrFrom, eeRead_of_letsPass hb hd h, readRun_one]
  exact if_neg (not_or.mpr ht)

/-- EE_READSTR reads and responds the bytes up to one that ends it (R229). -/
theorem eeReadStrFrom_run {s : State} {a : Addr} {n : Nat} (hb : s.busEnabled = true) (hd : s.device = .present)
    (h : letsPass (9 * n) s.portPlan) (ht : ∀ k, k < n → isTextByte (s.eeByte (addrAfter a k))) (cw : CmdWord)
    (left : Nat) :
    eeReadStrFrom cw (n + left) a s = eeReadStrFrom cw left (addrAfter a n) (readRun a n s) := by
  induction n generalizing left with
  | zero => rw [readRun_zero, addrAfter_zero, Nat.zero_add]
  | succ n ih =>
    have hevents : 9 * (n + 1) = 9 * n + 9 := by omega
    rw [hevents, letsPass_add] at h
    rw [Nat.add_assoc, Nat.add_comm 1, ih h.1 (fun k hk => ht k (by omega)),
      eeReadStrFrom_of_textByte (s := readRun a n s) hb hd h.2 (ht n (by omega)), nextAddr_addrAfter, readRun_readRun]

/-! ## One transaction on a working bus (R224, R226, R227) -/

/-- Settles O48: the device of R72 sends the byte. -/
theorem eeReadRespondsByte : Obligations.EeReadRespondsByte := by
  rintro s a ⟨hen, hplan, hdev, -⟩
  change execEeRead a s = _
  rw [execEeRead, eeRead_done hplan hen hdev, readEvents_eq_readTrace]
  rfl

theorem exec_eeWrite {s : State} (hbus : busWorks s) (a : Addr) (d : Byte) :
    exec (.eeWrite a d) s = .next (storeBytes a [d] s) := by
  obtain ⟨hen, hplan, hdev, -⟩ := hbus
  change execEeWrite a d s = _
  rw [execEeWrite, eeWriteLast, eeWrite_done hplan hen hdev]
  rfl

theorem storeBytes_onlyEepromCommand (a : Addr) (bs : List Byte) (s : State) :
    onlyEepromCommand s (storeBytes a bs s) := by
  rw [onlyEepromCommand, storeBytes_frame]

theorem storeBytes_cmd (a : Addr) (bs : List Byte) (s : State) : (storeBytes a bs s).cmd = s.cmd := by
  rw [storeBytes_frame]

theorem storeBytes_rsp (a : Addr) (bs : List Byte) (s : State) : (storeBytes a bs s).rsp = s.rsp := by
  rw [storeBytes_frame]

/-- A working bus stays one. -/
theorem busWorks_storeBytes {s : State} (hbus : busWorks s) (a : Addr) (bs : List Byte) :
    busWorks (storeBytes a bs s) := by
  induction bs generalizing a s with
  | nil => exact hbus
  | cons b bs ih =>
    obtain ⟨hen, hplan, hdev, hm⟩ := hbus
    exact ih (s := (s.logPorts (writeEvents s.params a b)).eeStore a b)
      ⟨hen, hplan, hdev, memory_wf_eeStore (s := s.logPorts (writeEvents s.params a b)) hm a b⟩ _

/-- Settles O49: EE_WRITE is a run of one byte. -/
theorem eeWriteStoresByte : Obligations.EeWriteStoresByte := by
  intro s a d hbus
  obtain ⟨hsame, hother⟩ := storesAt_storeBytes (a := a) (bs := [d]) (by simp) hbus.2.2.2
  have hread : (storeBytes a [d] s).eeByte a = d := by
    have h := hsame 0 d rfl
    rwa [addrAfter_zero] at h
  refine ⟨_, exec_eeWrite hbus a d, storeBytes_onlyEepromCommand .., storeBytes_cmd .., storeBytes_rsp .., ?_, hread,
    fun b hb => hother b fun k hk => ?_, _, eeReadRespondsByte _ a (busWorks_storeBytes hbus a [d]), ?_⟩
  · simp [storeBytes_ports, addrAfter_zero]
  · obtain rfl : k = 0 := by simpa using hk
    rwa [addrAfter_zero]
  · rw [State.setPorts_rsp, State.setRsp_rsp, hread, storeBytes_rsp]

/-- Settles O57: the read takes a floating byte and counts it, the write finds nobody to store. -/
theorem silentDeviceIsNotAnError : Obligations.SilentDeviceIsNotAnError := by
  intro s a d hen hplan hdev
  have hcount : s.countReply = s.setDraws (s.draws + 1) := by rw [State.countReply, hdev]
  constructor
  · change execEeWrite a d s = _
    rw [execEeWrite, eeWriteLast, State.eeWrite, drive_free hplan hen, writeEvents_eq_writeTrace]
    exact congrArg Host.Outcome.next (deviceStore_silent (s := s.logPorts _) hdev a d)
  · refine ⟨s.busReply a, s.draws + 1, ?_⟩
    change execEeRead a s = _
    rw [execEeRead, State.eeRead, hcount, drive_free (s := s.setDraws (s.draws + 1)) hplan hen, readEvents_eq_readTrace]
    rfl

/-! ## Strings on a working bus (R228, R229) -/

theorem storeBytes_append (a : Addr) (bs cs : List Byte) (s : State) :
    storeBytes a (bs ++ cs) s = storeBytes (addrAfter a bs.length) cs (storeBytes a bs s) := by
  induction bs generalizing a s with
  | nil => rw [List.length_nil, addrAfter_zero]; rfl
  | cons b bs ih =>
    rw [List.cons_append, storeBytes, ih, addrAfter_nextAddr]
    rfl

/-- EE_WRITESTR with its payload there stores the text and its terminator. -/
theorem exec_eeWriteStr {s : State} {len : Addr} {payload rest : List Byte} (hbus : busWorks s)
    (hl : payload.length = len.toNat) (hc : s.cmd = payload ++ rest) (a : Addr) :
    exec (.eeWriteStr a len) s =
      .next ((storeBytes a (payload.takeWhile (· ≠ 0x00#8) ++ [0x00#8]) s).setCmd rest) := by
  have hrun := eeWriteStrFrom_payload (cw := encodeWord (.eeWriteStr a len)) (left := 0) (a := a) hbus hc
  obtain ⟨hen, hplan, hdev, -⟩ := busWorks_storeBytes hbus a (payload.takeWhile (· ≠ 0x00#8))
  rw [Nat.add_zero, hl, eeWriteStrFrom, eeWriteLast, 
    eeWrite_done (s := State.setCmd rest _) hplan hen hdev] at hrun
  rw [storeBytes_append]
  exact congrArg Host.Outcome.next hrun

/-- Settles O50: text and terminator are a run of at most 2^16 bytes. -/
theorem eeWriteStrStoresText : Obligations.EeWriteStrStoresText := by
  intro s a len payload rest hbus hl hc
  have hlen : (payload.takeWhile (· ≠ 0x00#8) ++ [0x00#8]).length ≤ 65536 := by
    have htext : (payload.takeWhile (· ≠ 0x00#8)).length ≤ len.toNat := hl ▸ (List.takeWhile_sublist _).length_le
    have hlt := len.isLt
    rw [List.length_append, List.length_singleton]
    omega
  obtain ⟨hsame, hother⟩ := storesAt_storeBytes (a := a) hlen hbus.2.2.2
  refine ⟨_, _, rfl, exec_eeWriteStr hbus hl hc a, ?_, rfl, storeBytes_rsp .., storeBytes_ports .., hsame,
    fun b hb => hother b fun k hk => hb k ?_⟩
  · rw [onlyEepromCommand, storeBytes_frame]; rfl
  · rw [List.length_append, List.length_singleton] at hk
    omega

/-- EE_READSTR that finds the end of the text after `n` bytes. -/
theorem exec_eeReadStr {s : State} {a : Addr} {n : Nat} (hbus : busWorks s) (hn : n < 65536)
    (ht : ∀ k, k < n → isTextByte (s.eeByte (addrAfter a k))) (hstop : ¬isTextByte (s.eeByte (addrAfter a n))) :
    exec (.eeReadStr a) s =
      .next ((s.setRsp (s.rsp ++ eeBytes a n s ++ [0x00#8])).setPorts (s.ports ++ readRunTrace a (n + 1) s)) := by
  obtain ⟨hen, hplan, hdev, -⟩ := hbus
  obtain ⟨left, hleft⟩ := Nat.exists_eq_add_of_lt hn
  have hburst : readStrBurst = n + (left + 1) := hleft
  have hlast : s.eeByte (addrAfter a n) = 0x00#8 ∨ s.eeByte (addrAfter a n) = 0xFF#8 := by
    by_contra h
    exact hstop (not_or.mp h)
  have htrace : readRunTrace a (n + 1) s =
      readRunTrace a n s ++ readTrace s.params (addrAfter a n) (s.eeByte (addrAfter a n)) := by
    rw [readRunTrace, List.range_succ, List.flatMap_append, List.flatMap_singleton]
    rfl
  have hrun : readRun a n s = (s.respond (eeBytes a n s)).logPorts (readRunTrace a n s) := by
    rw [readRun, hplan, planAfter, ← hplan]
    rfl
  change execEeReadStr a s = _
  rw [execEeReadStr, hburst, eeReadStrFrom_run hen hdev (letsPass_of_free hplan _) ht, hrun, eeReadStrFrom,
    eeRead_done (s := (s.respond _).logPorts _) hplan hen hdev, htrace, ← List.append_assoc s.ports]
  refine congrArg Host.Outcome.next ((if_pos hlast).trans ?_)
  rw [readEvents_eq_readTrace]
  rfl

/-- Settles O51: the address that ends the run is within the reads of one step. -/
theorem eeReadStrSendsRun : Obligations.EeReadStrSendsRun := by
  intro s a n hbus hn ht hstop
  exact exec_eeReadStr hbus hn ht fun h => hstop.elim h.1 h.2

/-- Settles O53: EE_READSTR finds the bytes of the text where EE_WRITESTR put them, and after them the terminator. -/
theorem eepromStringRoundTrip : Obligations.EepromStringRoundTrip := by
  intro s a len text rest hbus hl h0 hFF hc
  have htake : text.takeWhile (· ≠ 0x00#8) = text :=
    List.takeWhile_eq_self_iff.mpr fun b hb => by simpa using fun h : b = 0x00#8 => h0 (h ▸ hb)
  have hlen := len.isLt
  have hwrite := exec_eeWriteStr hbus hl hc a
  rw [htake] at hwrite
  have hstored : ∀ {k b}, (text ++ [0x00#8])[k]? = some b →
      ((storeBytes a (text ++ [0x00#8]) s).setCmd rest).eeByte (addrAfter a k) = b :=
    eeByte_storeBytes (by rw [List.length_append, List.length_singleton]; omega) hbus.2.2.2
  have hbyte : ∀ k (hk : k < text.length),
      ((storeBytes a (text ++ [0x00#8]) s).setCmd rest).eeByte (addrAfter a k) = text[k] := fun k hk =>
    hstored (by rw [List.getElem?_append_left hk, List.getElem?_eq_getElem hk])
  have hend : ((storeBytes a (text ++ [0x00#8]) s).setCmd rest).eeByte (addrAfter a text.length) = 0x00#8 :=
    hstored List.getElem?_concat_length
  have hrun : eeBytes a text.length ((storeBytes a (text ++ [0x00#8]) s).setCmd rest) = text := by
    refine List.ext_getElem (by simp [eeBytes]) fun k hk hk' => ?_
    simp [eeBytes, hbyte k hk']
  have hread := exec_eeReadStr (s := (storeBytes a (text ++ [0x00#8]) s).setCmd rest) (a := a) (n := text.length)
    (busWorks_storeBytes hbus a _) (by omega)
    (fun k hk => by
      rw [hbyte k hk]
      exact ⟨fun h => h0 (h ▸ List.getElem_mem hk), fun h => hFF (h ▸ List.getElem_mem hk)⟩)
    (fun h => h.1 hend)
  refine ⟨_, _, hwrite, hread, ?_, rfl, ?_, rfl⟩
  · rw [hrun, State.setPorts_rsp, State.setRsp_rsp, State.setCmd_rsp, storeBytes_rsp]
  · rw [onlyEepromCommand, storeBytes_frame]; rfl

/-! ## EE_READSTR for ever (R229, R319) -/

theorem readRounds_eq (a : Addr) (n : Nat) (s : State) :
    readRounds a n s = (s.respond (List.replicate n (eeBytes a 65536 s)).flatten).logPorts
      (List.replicate n (readRunTrace a 65536 s)).flatten := rfl

theorem readRounds_one (a : Addr) (s : State) :
    readRounds a 1 s = (s.respond (eeBytes a 65536 s)).logPorts (readRunTrace a 65536 s) := by
  rw [readRounds_eq, List.replicate_one, List.replicate_one, List.flatten_singleton, List.flatten_singleton]

theorem readRounds_succ (a : Addr) (n : Nat) (s : State) :
    readRounds a n (readRounds a 1 s) = readRounds a (n + 1) s := by
  rw [readRounds_one, readRounds_eq, readRounds_eq, List.replicate_succ, List.flatten_cons, List.replicate_succ,
    List.flatten_cons]
  simp only [State.respond, State.logPorts, State.setRsp, State.setPorts, List.append_assoc]
  rfl

/-- A round reads every address and stands again at the first. -/
theorem eeReadStrFrom_round {s : State} (hbus : busWorks s) (ht : ∀ b, isTextByte (s.eeByte b)) (cw : CmdWord)
    (a : Addr) : eeReadStrFrom cw readStrBurst a s = (readRounds a 1 s).hold cw (.eeReadStr a) := by
  obtain ⟨hen, hplan, hdev, -⟩ := hbus
  have hrun := eeReadStrFrom_run (n := 65536) hen hdev (letsPass_of_free hplan _) (fun k _ => ht (addrAfter a k)) cw 0
  have hround : readRun a 65536 s = readRounds a 1 s := by
    rw [readRounds_one, readRun, hplan, planAfter, ← hplan]
    rfl
  rw [Nat.add_zero, hround, addrAfter_65536, eeReadStrFrom] at hrun
  exact hrun

/-- A step of a state that stands in the command is a round. -/
theorem step_of_readStrRound {s : State} {cw : CmdWord} {a : Addr} (hbus : busWorks s) (hr : s.resetIn = false)
    (ht : ∀ b, isTextByte (s.eeByte b)) (hp : s.parser = .exec cw (.eeReadStr a)) :
    step s = .next (readRounds a 1 s) := by
  rw [step_of_exec hr hp rfl, resumeExec, eeReadStrFrom_round (s := s.setParser .idle) hbus ht, State.hold, ← hp]
  rfl

/-- Settles O52: a round changes nothing that the next one looks at. -/
theorem eeReadStrCanReadForEver : Obligations.EeReadStrCanReadForEver := by
  intro s a hbus hr ht
  refine ⟨congrArg Host.Outcome.next (eeReadStrFrom_round hbus ht _ a), fun cw hp n => ?_⟩
  induction n generalizing s with
  | zero =>
    rw [readRounds_eq, List.replicate_zero, List.replicate_zero, List.flatten_nil, List.flatten_nil, State.respond,
      List.append_nil, State.logPorts, List.append_nil]
    rfl
  | succ n ih =>
    rw [steps, step_of_readStrRound hbus hr ht hp]
    exact (ih (readRounds a 1 s) hbus hr ht hp).trans (congrArg _ (readRounds_succ a n s))

/-! ## EE_ZERO on a working bus (R230) -/

theorem exec_eeZero {s : State} (hbus : busWorks s) (first limit : Addr) :
    exec (.eeZero first limit) s =
      .next (storeBytes first (List.replicate (limit.toNat - first.toNat) 0x00#8) s) := by
  have hrun := eeZeroFrom_run hbus.1 (letsPass_of_free hbus.2.1 _) (n := rangeLength first limit)
    (encodeWord (.eeZero first limit)) 0 first
  obtain ⟨hen, -⟩ := busWorks_storeBytes hbus first (List.replicate (rangeLength first limit) 0x00#8)
  rw [Nat.add_zero, writeRun_of_busWorks hbus, eeZeroFrom, if_pos hen] at hrun
  exact congrArg Host.Outcome.next hrun

theorem flatMap_zipIdx_replicate {α β : Type} (x : α) (n : Nat) (f : α × Nat → List β) :
    (List.replicate n x).zipIdx.flatMap f = (List.range n).flatMap fun k => f (x, k) := by
  have hpairs : (List.replicate n x).zipIdx = (List.range n).map fun k => (x, k) :=
    List.ext_getElem (by simp) (by simp)
  rw [hpairs, List.flatMap_map]

/-- A range of addresses below 2^16 does not wrap. -/
theorem toNat_addrAfter {a : Addr} {k : Nat} (h : a.toNat + k < 65536) : (addrAfter a k).toNat = a.toNat + k := by
  rw [addrAfter]
  bv_omega

theorem addrAfter_sub {a b : Addr} (h : a.toNat ≤ b.toNat) : addrAfter a (b.toNat - a.toNat) = b := by
  have hlt := b.isLt
  exact BitVec.eq_of_toNat_eq ((toNat_addrAfter (by omega)).trans (by omega))

/-- Settles O54: EE_ZERO is a run of zeros. -/
theorem eeZeroZeroesRange : Obligations.EeZeroZeroesRange := by
  intro s first limit hbus
  have hlt := limit.isLt
  obtain ⟨hsame, hother⟩ := storesAt_storeBytes (a := first)
    (bs := List.replicate (limit.toNat - first.toNat) 0x00#8) (by rw [List.length_replicate]; omega) hbus.2.2.2
  refine ⟨_, exec_eeZero hbus first limit, storeBytes_onlyEepromCommand .., storeBytes_cmd .., storeBytes_rsp .., ?_,
    fun b => ?_, fun hempty => ?_⟩
  · rw [storeBytes_ports, flatMap_zipIdx_replicate]
  · split
    · next hin =>
      have hbyte := hsame (b.toNat - first.toNat) 0x00#8 (by
        rw [List.getElem?_replicate, if_pos (by omega)])
      rwa [addrAfter_sub hin.1] at hbyte
    · next hout =>
      refine hother b fun k hk hb => hout ?_
      rw [List.length_replicate] at hk
      rw [hb, toNat_addrAfter (by omega)]
      omega
  · rw [Nat.sub_eq_zero_of_le hempty]
    rfl

end Sys2Proof.Proofs
end

section
/-!
Proofs of the EEPROM family, where a bus event never completes: at every event of a bus that gets stuck, at the first
event of one that is not enabled.
-/

namespace Sys2Proof.Proofs

open Sys2Proof.Machine Sys2Proof.Claims

/-! ## Stopped at a port (R232) -/

theorem heldForEver_of_port {t : State} {cw : CmdWord} (hr : t.resetIn = false) (hp : t.parser = .exec cw .port) :
    heldForEver t := fun bs => by
  rw [step_of_exec (s := t.hostSend bs) hr hp rfl]
  rfl

theorem step_assertReset (t : State) : step t.assertReset = .next t.assertReset.takeReset := rfl

theorem countReply_frame (s : State) : s.countReply = { s with draws := s.countReply.draws } := by
  unfold State.countReply
  split <;> rfl

/-- Where a command stops when the bus gets stuck: `es` are the events of its last transaction. -/
def stuckAt (cw : CmdWord) (es : List PortEvent) (b : BusPosition) (s : State) : State :=
  (((s.logPorts es).setPortPlan (.stuckAfter 0)).setBus b).hold cw .port

theorem stuckAt_setParser (cw : CmdWord) (es : List PortEvent) (b : BusPosition) (p : Parser) (s : State) :
    stuckAt cw es b (s.setParser p) = stuckAt cw es b s := rfl

theorem stuckAt_readRun (cw : CmdWord) (es : List PortEvent) (b : BusPosition) (a : Addr) (n : Nat) (s : State) :
    stuckAt cw es b (readRun a n s).countReply = { s with
      parser := .exec cw .port
      bus := b
      rsp := s.rsp ++ eeBytes a n s
      ports := s.ports ++ readRunTrace a n s ++ es
      portPlan := .stuckAfter 0
      draws := (readRun a n s).countReply.draws } := by
  rw [countReply_frame]
  simp only [stuckAt, readRun, State.hold, State.setParser, State.setBus, State.setPortPlan, State.logPorts,
    State.setPorts, State.respond, State.setRsp]

theorem eeByte_congr {s t : State} (hparams : t.params = s.params) (hee : t.ee = s.ee) (a : Addr) :
    t.eeByte a = s.eeByte a := by
  rw [State.eeByte, State.eeByte, hparams, hee]

theorem storesAt_stuckAt {a : Addr} {bs c : List Byte} {s t : State} {cw : CmdWord} {es : List PortEvent}
    {b : BusPosition} (h : storesAt a bs s t) : storesAt a bs s (stuckAt cw es b (t.setCmd c)) := h

/-- What StuckBusHoldsUntilReset says of one command, state and event. -/
def HangsAtEvent (i : Instr) (s : State) (n : Nat) : Prop :=
  ∃ r t u, exec i s = .next r ∧ steps (n / (9 * 65536)) r = .next t ∧ t.parser = .exec (encodeWord i) .port ∧
    t = { s with
      parser := t.parser, bus := t.bus, cmd := t.cmd, ports := t.ports, portPlan := t.portPlan,
      rsp := s.rsp ++ respondedBefore s n i, ee := t.ee, draws := t.draws } ∧
    t.ports.length = s.ports.length + (n + 1) ∧
    (s.device = .silent → t.ee = s.ee) ∧
    (s.device = .present → Memory.wf s.params.eeErased s.ee = true →
      storesAt (bytesToWrite s i).1 ((bytesToWrite s i).2.take (n / 7)) s t) ∧
    heldForEver t ∧ step t.assertReset = .next u ∧ u.parser = .idle

/-- An event of the first step's reads, or of a command that writes, is reached in the first step. -/
theorem steps_of_firstEvents {n : Nat} (hn : n < 9 * 65536) (r : State) : steps (n / (9 * 65536)) r = .next r := by
  rw [Nat.div_eq_of_lt hn]
  rfl

/-! ## Stuck in a write transaction -/

/-- After a run of whole write transactions the bus gets stuck in the next one. -/
theorem eeWrite_stuck_of_writeRun {s : State} {n : Nat} {bs : List Byte} (hb : s.busEnabled = true)
    (hp : s.portPlan = .stuckAfter n) (hl : bs.length = n / 7) (cw : CmdWord) (a a' : Addr) (d : Byte)
    (c : List Byte) :
    ∃ t es b, ((writeRun a bs s).setCmd c).eeWrite a' d = (t, false) ∧ es.length = n % 7 + 1 ∧
      t.hold cw .port = stuckAt cw es b ((writeRun a bs s).setCmd c) := by
  have hleft : n - 7 * bs.length = n % 7 := by omega
  have hplan : ((writeRun a bs s).setCmd c).portPlan = .stuckAfter (n % 7) := by
    rw [writeRun_frame, hp, planAfter, hleft]
    rfl
  have hen : ((writeRun a bs s).setCmd c).busEnabled = true := by
    rw [writeRun_frame]
    exact hb
  obtain ⟨es, hes, hw⟩ := (eeWrite_stuckAfter hplan hen a' d).2 (Nat.mod_lt _ (by omega))
  exact ⟨_, es, _, hw, hes, rfl⟩

theorem storesAt_writeRun {s : State} {a : Addr} {bs : List Byte} (hd : s.device = .present) (hl : bs.length ≤ 65536)
    (hm : Memory.wf s.params.eeErased s.ee = true) : storesAt a bs s (writeRun a bs s) := by
  rw [writeRun_of_present hd]
  exact storesAt_storeBytes (s := s) hl hm

theorem stuckAt_writeRun (cw : CmdWord) (es : List PortEvent) (b : BusPosition) (a : Addr) (bs c : List Byte)
    (s : State) :
    stuckAt cw es b ((writeRun a bs s).setCmd c) = { s with
      parser := .exec cw .port
      bus := b
      cmd := c
      ports := (writeRun a bs s).ports ++ es
      portPlan := .stuckAfter 0
      ee := (writeRun a bs s).ee } := by
  rw [writeRun_frame]
  simp only [stuckAt, State.hold, State.setParser, State.setBus, State.setPortPlan, State.logPorts, State.setPorts,
    State.setCmd]

/-- A command that gets stuck while it writes. -/
theorem hangsAtEvent_of_write {i : Instr} {s : State} {n : Nat} {a : Addr} {bs c : List Byte} {es : List PortEvent}
    {b : BusPosition} (hr : s.resetIn = false) (hwrites : bytesToWrite s i = (a, bs))
    (hresponds : respondedBefore s n i = []) (hl : bs.length ≤ 65536) (hn : n < 7 * bs.length)
    (hes : es.length = n % 7 + 1)
    (hexec : exec i s = .next (stuckAt (encodeWord i) es b ((writeRun a (bs.take (n / 7)) s).setCmd c))) :
    HangsAtEvent i s n := by
  have htake : (bs.take (n / 7)).length = n / 7 := List.length_take_of_le (by omega)
  rw [stuckAt_writeRun] at hexec
  refine ⟨_, _, _, hexec, steps_of_firstEvents (by omega) _, rfl, ?_, ?_,
    fun hd => writeRun_ee_of_silent hd a (bs.take (n / 7)), fun hd hm => ?_, heldForEver_of_port hr rfl,
    step_assertReset _, rfl⟩
  · rw [hresponds, List.append_nil]
  · rw [List.length_append, writeRun_ports_length, htake, hes]
    omega
  · have hstored : (bs.take (n / 7)).length ≤ 65536 := by omega
    rw [hwrites, ← stuckAt_writeRun]
    exact storesAt_stuckAt (storesAt_writeRun hd hstored hm)

theorem writeRun_setCmd_self (a : Addr) (bs : List Byte) (s : State) :
    (writeRun a bs s).setCmd s.cmd = writeRun a bs s := (writeRun_setCmd a bs s.cmd s).symm

theorem eeWrite_hangsAtEvent {s : State} {n : Nat} (hb : s.busEnabled = true) (hp : s.portPlan = .stuckAfter n)
    (hr : s.resetIn = false) (a : Addr) (d : Byte) (hn : n < 7) : HangsAtEvent (.eeWrite a d) s n := by
  have hk : n / 7 = 0 := Nat.div_eq_of_lt hn
  obtain ⟨t, es, b, hw, hes, ht⟩ :=
    eeWrite_stuck_of_writeRun (bs := []) hb hp hk.symm (encodeWord (.eeWrite a d)) a a d s.cmd
  refine hangsAtEvent_of_write hr rfl rfl (by simp) (by simpa using hn) hes (b := b) (c := s.cmd) ?_
  rw [hk, List.take_zero, ← ht]
  change execEeWrite a d s = _
  rw [execEeWrite, eeWriteLast, show s.eeWrite a d = (t, false) from hw]

theorem eeZero_hangsAtEvent {s : State} {n : Nat} (hb : s.busEnabled = true) (hp : s.portPlan = .stuckAfter n)
    (hr : s.resetIn = false) (first limit : Addr) (hn : n < 7 * (limit.toNat - first.toNat)) :
    HangsAtEvent (.eeZero first limit) s n := by
  have hlt := limit.isLt
  have hwithin : n / 7 < rangeLength first limit := by rw [rangeLength]; omega
  obtain ⟨left, hleft⟩ := Nat.exists_eq_add_of_lt hwithin
  have htake : (List.replicate (limit.toNat - first.toNat) 0x00#8).take (n / 7) = List.replicate (n / 7) 0x00#8 := by
    rw [List.take_replicate, Nat.min_eq_left (by omega)]
  obtain ⟨t, es, b, hw, hes, ht⟩ := eeWrite_stuck_of_writeRun hb hp (List.length_replicate (a := 0x00#8))
    (encodeWord (.eeZero first limit)) first (addrAfter first (n / 7)) 0x00#8 s.cmd
  refine hangsAtEvent_of_write hr rfl rfl (by rw [List.length_replicate]; omega) (by rwa [List.length_replicate])
    hes (b := b) (c := s.cmd) ?_
  rw [htake, ← ht]
  rw [writeRun_setCmd_self] at hw
  change execEeZero first limit s = _
  rw [execEeZero, hleft, Nat.add_assoc, eeZeroFrom_run hb (letsPass_of_stuckAfter hp (by omega)), eeZeroFrom, hw]

/-- The text of an EE_WRITESTR stands at the head of the stream. -/
theorem exists_cmd_eq_textOf_append (len : Addr) (s : State) : ∃ rest, s.cmd = textOf len s ++ rest := by
  refine ⟨(s.cmd.take len.toNat).dropWhile (· ≠ 0x00#8) ++ s.cmd.drop len.toNat, ?_⟩
  rw [textOf, ← List.append_assoc, List.takeWhile_append_dropWhile, List.take_append_drop]

/-- EE_WRITESTR stuck at a byte of its text. -/
theorem eeWriteStr_hangsAtEvent_of_text {s : State} {n : Nat} (hb : s.busEnabled = true)
    (hp : s.portPlan = .stuckAfter n) (hr : s.resetIn = false) (a len : Addr) (hk : n / 7 < (textOf len s).length) :
    HangsAtEvent (.eeWriteStr a len) s n := by
  have hlen := len.isLt
  have htext := length_textOf_le len s
  obtain ⟨rest, hcmd⟩ := exists_cmd_eq_textOf_append len s
  have h0 : 0x00#8 ∉ textOf len s := zero_notMem_takeWhile _
  have htake : (textOf len s ++ [0x00#8]).take (n / 7) = (textOf len s).take (n / 7) :=
    List.take_append_of_le_length (by omega)
  have hdone : ((textOf len s).take (n / 7)).length = n / 7 := List.length_take_of_le (by omega)
  have hsplit : s.cmd =
      (textOf len s).take (n / 7) ++ (textOf len s)[n / 7] :: ((textOf len s).drop (n / 7 + 1) ++ rest) := by
    conv_lhs => rw [hcmd, ← List.take_append_drop (n / 7) (textOf len s), List.drop_eq_getElem_cons hk]
    rw [List.append_assoc, List.cons_append]
  obtain ⟨left, hleft⟩ := Nat.exists_eq_add_of_lt (show n / 7 < len.toNat by omega)
  obtain ⟨t, es, b, hw, hes, ht⟩ := eeWrite_stuck_of_writeRun hb hp hdone (encodeWord (.eeWriteStr a len)) a
    (addrAfter a (n / 7)) (textOf len s)[n / 7] ((textOf len s).drop (n / 7 + 1) ++ rest)
  refine hangsAtEvent_of_write hr rfl rfl ?_ ?_ hes (b := b) (c := (textOf len s).drop (n / 7 + 1) ++ rest) ?_
  · rw [List.length_append, List.length_singleton]; omega
  · rw [List.length_append, List.length_singleton]; omega
  · rw [htake, ← ht]
    have hrun := eeWriteStrFrom_text hb (letsPass_of_stuckAfter hp (by rw [hdone]; omega))
      (fun h => h0 (List.mem_of_mem_take h)) hsplit (encodeWord (.eeWriteStr a len)) (left + 1) a
    rw [hdone, ← Nat.add_assoc, ← hleft, eeWriteStrFrom_of_cut (s := State.setCmd _ _) rfl
      (fun h => h0 (h ▸ List.getElem_mem hk)) hw] at hrun
    exact congrArg Host.Outcome.next hrun

/-- EE_WRITESTR stuck at its terminator. -/
theorem eeWriteStr_hangsAtEvent_of_terminator {s : State} {n : Nat} (hb : s.busEnabled = true)
    (hp : s.portPlan = .stuckAfter n) (hr : s.resetIn = false) (a len : Addr) (hpayload : len.toNat ≤ s.cmd.length)
    (hk : n / 7 = (textOf len s).length) : HangsAtEvent (.eeWriteStr a len) s n := by
  have hlen := len.isLt
  have htext := length_textOf_le len s
  have htake : (textOf len s ++ [0x00#8]).take (n / 7) = textOf len s := List.take_left' hk.symm
  have hall : (s.cmd.take len.toNat).length = len.toNat := List.length_take_of_le hpayload
  obtain ⟨stopped, hrun⟩ := eeWriteStrFrom_payload_of_letsPass hb
    (letsPass_of_stuckAfter hp (by rw [← textOf, ← hk]; omega)) (List.take_append_drop len.toNat s.cmd).symm
    (encodeWord (.eeWriteStr a len)) 0 a
  obtain ⟨t, es, b, hw, hes, ht⟩ := eeWrite_stuck_of_writeRun hb hp hk.symm (encodeWord (.eeWriteStr a len)) a
    (addrAfter a (textOf len s).length) 0x00#8 (s.cmd.drop len.toNat)
  refine hangsAtEvent_of_write hr rfl rfl ?_ ?_ hes (b := b) (c := s.cmd.drop len.toNat) ?_
  · rw [List.length_append, List.length_singleton]; omega
  · rw [List.length_append, List.length_singleton]; omega
  · rw [htake, ← ht]
    rw [hall, ← textOf, eeWriteStrFrom, eeWriteLast, hw] at hrun
    exact congrArg Host.Outcome.next hrun

/-! ## Stuck in a read transaction -/

/-- A read transaction in which the bus gets stuck. -/
theorem eeRead_stuck {s : State} {m : Nat} (hb : s.busEnabled = true) (hp : s.portPlan = .stuckAfter m) (hm : m < 9)
    (cw : CmdWord) (a : Addr) :
    ∃ t es b, s.eeRead a = (t, none) ∧ es.length = m + 1 ∧ t.hold cw .port = stuckAt cw es b s.countReply := by
  obtain ⟨es, hes, hread⟩ := (eeRead_stuckAfter hp hb a).2 hm
  exact ⟨_, es, _, hread, hes, rfl⟩

/-- A command that gets stuck while it reads. -/
theorem hangsAtEvent_of_read {i : Instr} {s r : State} {n : Nat} {a : Addr} {es : List PortEvent} {b : BusPosition}
    (hr : s.resetIn = false) (hwrites : bytesToWrite s i = (0, []))
    (hresponds : respondedBefore s n i = eeBytes a (n / 9) s) (hes : es.length = n % 9 + 1)
    (hexec : exec i s = .next r)
    (hsteps : steps (n / (9 * 65536)) r = .next (stuckAt (encodeWord i) es b (readRun a (n / 9) s).countReply)) :
    HangsAtEvent i s n := by
  rw [stuckAt_readRun] at hsteps
  refine ⟨_, _, _, hexec, hsteps, rfl, ?_, ?_, fun _ => rfl, fun _ _ => ?_, heldForEver_of_port hr rfl,
    step_assertReset _, rfl⟩
  · rw [hresponds]
  · have hlog : (s.ports ++ readRunTrace a (n / 9) s ++ es).length = s.ports.length + (n + 1) := by
      rw [List.length_append, List.length_append, readRunTrace_length, hes]
      omega
    exact hlog
  · rw [hwrites, List.take_nil]
    exact ⟨nofun, fun x _ => eeByte_congr (s := s) rfl rfl x⟩

theorem eeRead_hangsAtEvent {s : State} {n : Nat} (hb : s.busEnabled = true) (hp : s.portPlan = .stuckAfter n)
    (hr : s.resetIn = false) (a : Addr) (hn : n < 9) : HangsAtEvent (.eeRead a) s n := by
  have hk : n / 9 = 0 := Nat.div_eq_of_lt hn
  have hmod : n % 9 = n := Nat.mod_eq_of_lt hn
  obtain ⟨t, es, b, hread, hes, ht⟩ := eeRead_stuck hb hp hn (encodeWord (.eeRead a)) a
  have hexec : exec (.eeRead a) s = .next (t.hold (encodeWord (.eeRead a)) .port) := by
    change execEeRead a s = _
    rw [execEeRead, hread]
  refine hangsAtEvent_of_read hr rfl (a := a) ?_ (by rw [hmod]; exact hes) hexec (b := b) ?_
  · rw [hk]; rfl
  · rw [hk, readRun_zero, ← ht]
    exact steps_of_firstEvents (by omega) _

theorem countReply_readRun {s : State} (hd : s.device = .present) (a : Addr) (n : Nat) :
    (readRun a n s).countReply = readRun a n s := countReply_present ((readRun_device a n s).trans hd)

/-- EE_READSTR, from the step in which the bus gets stuck. -/
theorem eeReadStrFrom_stuck {s : State} {n : Nat} {a : Addr} (hb : s.busEnabled = true)
    (hp : s.portPlan = .stuckAfter n) (hn : n / 9 < readStrBurst)
    (hdrives : drivesEvent s n (.eeReadStr a)) (cw : CmdWord) :
    ∃ es b, es.length = n % 9 + 1 ∧
      eeReadStrFrom cw readStrBurst a s = stuckAt cw es b (readRun a (n / 9) s).countReply := by
  obtain ⟨left, hleft⟩ := Nat.exists_eq_add_of_lt hn
  have hrun : eeReadStrFrom cw (n / 9 + (left + 1)) a s =
      eeReadStrFrom cw (left + 1) (addrAfter a (n / 9)) (readRun a (n / 9) s) := by
    obtain hfirst | ⟨hd, htext⟩ := hdrives
    · rw [Nat.div_eq_of_lt hfirst, readRun_zero, addrAfter_zero, Nat.zero_add]
    · exact eeReadStrFrom_run hb hd (letsPass_of_stuckAfter hp (by omega)) htext cw _
  have hrest : n - 9 * (n / 9) = n % 9 := by omega
  have hplan : (readRun a (n / 9) s).portPlan = .stuckAfter (n % 9) := by
    rw [← hrest, readRun, hp]
    rfl
  obtain ⟨t, es, b, hread, hes, ht⟩ := eeRead_stuck (s := readRun a (n / 9) s) hb hplan (Nat.mod_lt _ (by omega)) cw
    (addrAfter a (n / 9))
  refine ⟨es, b, hes, ?_⟩
  rw [hleft, Nat.add_assoc, hrun, eeReadStrFrom, hread]
  exact ht

/-- EE_READSTR reads `65536` addresses a step, until the step in which the bus gets stuck (entry 5). -/
theorem steps_eeReadStrFrom_stuck {s : State} {n : Nat} {a : Addr} (hb : s.busEnabled = true)
    (hp : s.portPlan = .stuckAfter n) (hr : s.resetIn = false)
    (hdrives : drivesEvent s n (.eeReadStr a)) (cw : CmdWord) :
    ∃ es b, es.length = n % 9 + 1 ∧ steps (n / (9 * 65536)) (eeReadStrFrom cw readStrBurst a s) =
      .next (stuckAt cw es b (readRun a (n / 9) s).countReply) := by
  have hburst : readStrBurst = 65536 := rfl
  generalize hq : n / (9 * 65536) = q
  induction q generalizing s n with
  | zero =>
    obtain ⟨es, b, hes, hstuck⟩ := eeReadStrFrom_stuck hb hp (by rw [hburst]; omega) hdrives cw
    exact ⟨es, b, hes, congrArg Host.Outcome.next hstuck⟩
  | succ q ih =>
    obtain ⟨m, rfl⟩ := Nat.exists_eq_add_of_le (show 9 * 65536 ≤ n by omega)
    obtain hfirst | ⟨hd, htext⟩ := hdrives
    · omega
    have hround := eeReadStrFrom_run (n := 65536) hb hd (letsPass_of_stuckAfter hp (by omega))
      (fun k hk => htext k (by omega)) cw 0
    rw [Nat.add_zero, addrAfter_65536, eeReadStrFrom] at hround
    have hplan : (readRun a 65536 s).portPlan = .stuckAfter m := by
      rw [readRun, hp]
      exact congrArg PortPlan.stuckAfter (by omega)
    obtain ⟨es, b, hes, hsteps⟩ := ih (s := (readRun a 65536 s).setParser .idle) (n := m) hb hplan hr
      (Or.inr ⟨hd, fun k hk => htext k (by omega)⟩) (by omega)
    have hcount : (9 * 65536 + m) / 9 = 65536 + m / 9 := by omega
    have hrun : readRun a (m / 9) (readRun a 65536 s) = readRun a ((9 * 65536 + m) / 9) s := by
      rw [hcount, ← readRun_readRun, addrAfter_65536]
    refine ⟨es, b, by omega, ?_⟩
    rw [countReply_readRun (s := (readRun a 65536 s).setParser .idle) hd, readRun_setParser, hrun, stuckAt_setParser]
      at hsteps
    rw [hburst, hround, steps, step_of_exec (s := (readRun a 65536 s).hold cw (.eeReadStr a)) hr rfl rfl,
      countReply_readRun hd]
    exact hsteps

theorem eeReadStr_hangsAtEvent {s : State} {n : Nat} (hb : s.busEnabled = true) (hp : s.portPlan = .stuckAfter n)
    (hr : s.resetIn = false) (a : Addr)
    (hdrives : drivesEvent s n (.eeReadStr a)) :
    HangsAtEvent (.eeReadStr a) s n := by
  obtain ⟨es, b, hes, hsteps⟩ := steps_eeReadStrFrom_stuck hb hp hr hdrives (encodeWord (.eeReadStr a))
  exact hangsAtEvent_of_read hr rfl rfl hes rfl hsteps

/-- Settles O55, command by command. -/
theorem stuckBusHoldsUntilReset : Obligations.StuckBusHoldsUntilReset := by
  intro i s n hb hp hr hdrives
  cases i with
  | eeRead a => exact eeRead_hangsAtEvent hb hp hr a hdrives
  | eeWrite a d => exact eeWrite_hangsAtEvent hb hp hr a d hdrives
  | eeReadStr a => exact eeReadStr_hangsAtEvent hb hp hr a hdrives
  | eeZero first limit => exact eeZero_hangsAtEvent hb hp hr first limit hdrives
  | eeWriteStr a len =>
    by_cases hk : n / 7 < (textOf len s).length
    · exact eeWriteStr_hangsAtEvent_of_text hb hp hr a len hk
    · obtain htext | ⟨hpayload, hlast⟩ := hdrives
      · omega
      · exact eeWriteStr_hangsAtEvent_of_terminator hb hp hr a len hpayload (by omega)
  | _ => exact absurd hdrives id

/-! ## The bus not enabled (R231) -/

/-- Where a command stands that stopped at its first bus event: `es` are the events it drove. -/
structure StoppedAtFirstEvent (cw : CmdWord) (es : List PortEvent) (s t : State) : Prop where
  parser : t.parser = .exec cw .port := by rfl
  ports : t.ports = s.ports ++ es := by rfl
  ee : t.ee = s.ee := by rfl
  rsp : t.rsp = s.rsp := by rfl
  status : t.status = s.status := by rfl
  resetIn : t.resetIn = s.resetIn := by rfl

theorem stoppedAtFirstEvent_of_read (cw : CmdWord) (b : BusPosition) (s : State) :
    StoppedAtFirstEvent cw [.busStart] s (((s.countReply.logPorts [.busStart]).setBus b).hold cw .port) := by
  rw [countReply_frame]
  exact {}

theorem stoppedAtFirstEvent_of_write (cw : CmdWord) (b : BusPosition) (c : List Byte) (s : State) :
    StoppedAtFirstEvent cw [.busStart] s ((((s.setCmd c).logPorts [.busStart]).setBus b).hold cw .port) := {}

/-- EE_WRITESTR over payload bytes that begin with a 0x00, or are none: it consumes them and writes nothing. -/
theorem eeWriteStrFrom_of_noText {bs rest : List Byte} {s : State} (h : bs.takeWhile (· ≠ 0x00#8) = [])
    (hc : s.cmd = bs ++ rest) (cw : CmdWord) (left : Nat) (a : Addr) :
    eeWriteStrFrom cw (bs.length + left) a false s =
      eeWriteStrFrom cw left a (decide (0x00#8 ∈ bs)) (s.setCmd rest) := by
  cases bs with
  | nil =>
    rw [List.nil_append] at hc
    rw [List.length_nil, Nat.zero_add, ← hc]
    rfl
  | cons b bs =>
    obtain rfl : b = 0x00#8 := by simpa using h
    have hmem : decide (0x00#8 ∈ 0x00#8 :: bs) = true := decide_eq_true List.mem_cons_self
    rw [List.length_cons, Nat.add_right_comm, eeWriteStrFrom_of_stopped hc (.inr rfl), hmem]
    exact eeWriteStrFrom_payload_stopped rfl

/-- EE_WRITESTR on a bus that is not enabled stops at its first byte or at its terminator. -/
theorem exec_eeWriteStr_disabled {s : State} (hb : s.busEnabled = false) (hp : s.portPlan ≠ .resetAfter 0)
    (a len : Addr) (hw : waitsForPayload s (.eeWriteStr a len) = false) :
    ∃ t, exec (.eeWriteStr a len) s = .next t ∧
      StoppedAtFirstEvent (encodeWord (.eeWriteStr a len)) [.busStart] s t := by
  have htext := length_textOf_le len s
  obtain ⟨rest, hcmd⟩ := exists_cmd_eq_textOf_append len s
  have h0 : 0x00#8 ∉ textOf len s := zero_notMem_takeWhile _
  cases hfirst : textOf len s with
  | cons b text =>
    rw [hfirst, List.length_cons] at htext
    rw [hfirst, List.cons_append] at hcmd
    rw [hfirst] at h0
    obtain ⟨left, hleft⟩ := Nat.exists_eq_add_one.mpr (show 0 < len.toNat by omega)
    have hrun := eeWriteStrFrom_of_cut (cw := encodeWord (.eeWriteStr a len)) (left := left) (a := a) hcmd
      (fun h => h0 (h ▸ List.mem_cons_self)) (eeWrite_disabled (s := s.setCmd (text ++ rest)) hb hp a b)
    rw [← hleft] at hrun
    exact ⟨_, congrArg Host.Outcome.next hrun, stoppedAtFirstEvent_of_write ..⟩
  | nil =>
    have hpayload : len.toNat ≤ s.cmd.length := by simpa [waitsForPayload, hfirst] using hw
    have hall : (s.cmd.take len.toNat).length = len.toNat := List.length_take_of_le hpayload
    have hrun := eeWriteStrFrom_of_noText hfirst (List.take_append_drop len.toNat s.cmd).symm
      (encodeWord (.eeWriteStr a len)) 0 a
    rw [Nat.add_zero, hall, eeWriteStrFrom, eeWriteLast,
      eeWrite_disabled (s := s.setCmd (s.cmd.drop len.toNat)) hb hp] at hrun
    exact ⟨_, congrArg Host.Outcome.next hrun, stoppedAtFirstEvent_of_write ..⟩

/-- Every EE_ command that need not wait for its payload stops at its first bus event. -/
theorem exec_disabled {i : Instr} {s : State} (hb : s.busEnabled = false) (hp : s.portPlan ≠ .resetAfter 0)
    (hi : usesBus i = true) (hw : waitsForPayload s i = false) :
    ∃ t, exec i s = .next t ∧ StoppedAtFirstEvent (encodeWord i) (firstEvents i) s t := by
  cases i with
  | eeRead a =>
    refine ⟨_, ?_, stoppedAtFirstEvent_of_read _ (.reading a 1) s⟩
    change execEeRead a s = _
    rw [execEeRead, eeRead_disabled hb hp]
  | eeWrite a d =>
    refine ⟨_, ?_, stoppedAtFirstEvent_of_write _ (.writing a d 1) s.cmd s⟩
    change execEeWrite a d s = _
    rw [execEeWrite, eeWriteLast, eeWrite_disabled hb hp]
    rfl
  | eeWriteStr a len => exact exec_eeWriteStr_disabled hb hp a len hw
  | eeReadStr a =>
    refine ⟨_, ?_, stoppedAtFirstEvent_of_read _ (.reading a 1) s⟩
    have hburst : readStrBurst = 65535 + 1 := rfl
    change execEeReadStr a s = _
    rw [execEeReadStr, hburst, eeReadStrFrom, eeRead_disabled hb hp]
  | eeZero first limit =>
    change ∃ t, Host.Outcome.next (eeZeroFrom _ (rangeLength first limit) first s) = .next t ∧ _
    rw [firstEvents]
    split
    · next hrange =>
      have hpos : 0 < rangeLength first limit := Nat.sub_pos_of_lt hrange
      obtain ⟨left, hleft⟩ := Nat.exists_eq_add_one.mpr hpos
      rw [hleft, eeZeroFrom, eeWrite_disabled hb hp]
      exact ⟨_, rfl, stoppedAtFirstEvent_of_write _ _ s.cmd s⟩
    · next hempty =>
      have hnone : rangeLength first limit = 0 := Nat.sub_eq_zero_of_le (by omega)
      rw [hnone, eeZeroFrom, if_neg (by rw [hb]; exact Bool.false_ne_true)]
      exact ⟨_, rfl, { ports := (List.append_nil _).symm }⟩
  | _ => cases hi

/-- An EE_WRITESTR with no byte to write yet takes what is there and waits for the rest, whatever the bus. -/
theorem exec_eeWriteStr_waits {s : State} {len : Addr} (htext : textOf len s = []) (hl : s.cmd.length < len.toNat)
    (a : Addr) :
    exec (.eeWriteStr a len) s = .next ((s.setCmd []).hold (encodeWord (.eeWriteStr a len))
      (.eeWriteStr a (len.toNat - s.cmd.length) (decide (0x00#8 ∈ s.cmd)))) := by
  obtain ⟨left, hleft⟩ := Nat.exists_eq_add_of_lt hl
  have hwait : len.toNat - s.cmd.length = left + 1 := by omega
  rw [textOf, List.take_of_length_le (by omega)] at htext
  have hrun := eeWriteStrFrom_of_noText htext (List.append_nil _).symm (encodeWord (.eeWriteStr a len)) (left + 1) a
  rw [eeWriteStrFrom_of_nil rfl, ← Nat.add_assoc, ← hleft, ← hwait] at hrun
  exact congrArg Host.Outcome.next hrun

/-- Settles O56: an EE_WRITESTR that waits goes on as if its payload had been there from the start. -/
theorem disabledBusStopsEveryEeCommand : Obligations.DisabledBusStopsEveryEeCommand := by
  intro i s hb hp hr hi
  refine ⟨fun hw => ?_, fun hw => ?_⟩
  · obtain ⟨t, hexec, ht⟩ := exec_disabled hb hp hi hw
    exact ⟨t, _, hexec, ht.parser, ht.ports, ht.ee, ht.rsp, ht.status,
      heldForEver_of_port (ht.resetIn.trans hr) ht.parser, step_assertReset t, rfl⟩
  · cases i with
    | eeWriteStr a len =>
      obtain ⟨htext, hl⟩ : textOf len s = [] ∧ s.cmd.length < len.toNat := by simpa [waitsForPayload] using hw
      have hlt := len.isLt
      have hok : progressOk (.eeWriteStr a (len.toNat - s.cmd.length) (decide (0x00#8 ∈ s.cmd))) = true :=
        decide_eq_true (by omega)
      refine ⟨_, exec_eeWriteStr_waits htext hl a, rfl, rfl, rfl, rfl, rfl, step_of_waiting hr rfl hok rfl rfl,
        fun bs hbs => ?_⟩
      have hwhole : waitsForPayload ((s.setParser .idle).hostSend bs) (.eeWriteStr a len) = false := by
        have henough : ¬(s.cmd ++ bs).length < len.toNat := by
          rw [List.length_append]
          exact Nat.not_lt.mpr hbs
        exact Bool.and_eq_false_iff.mpr (.inr (decide_eq_false henough))
      obtain ⟨u, hexec, hu⟩ :=
        exec_disabled (s := (s.setParser .idle).hostSend bs) (i := .eeWriteStr a len) hb hp rfl hwhole
      have hstep := exec_resumes (s := s.setParser .idle) rfl hr bs
        (exec_eeWriteStr_waits (s := s.setParser .idle) htext hl a) rfl
      exact ⟨u, hstep.trans hexec, hu.parser, hu.ports, hu.ee, hu.rsp, hu.status,
        heldForEver_of_port (hu.resetIn.trans hr) hu.parser⟩
    | _ => cases hw

end Sys2Proof.Proofs
end

section
/-!
Proofs of the control family: NOP and runs of zero bytes, the report of GETSTATUS, the clearing by CLRERR.
-/

namespace Sys2Proof.Proofs

open Sys2Proof.Machine Sys2Proof.Claims

/-! ## NOP (R260) -/

theorem exec_nop (s : State) : exec .nop s = .next s := rfl

/-- From a packet boundary, a step with the header of a command there is that command (R26, R80). -/
theorem step_of_encode {s : State} {i : Instr} {rest : List Byte} (hr : s.resetIn = false) (hp : s.parser = .idle)
    (hc : s.cmd = encode i ++ rest) : step s = exec i (s.setCmd rest) := by
  have hd : decodeWord (wordOfBytes ([] ++ encode i)) = .instr i := by
    rw [List.nil_append, encode, wordOfBytes_bytesOfWord, decodeWord_encodeWord]
  have hidle : (s.setCmd rest).setParser .idle = s.setCmd rest := by
    rw [← hp]
    rfl
  rw [stepRunsDecodedCommand s [] (encode i) rest i ⟨hr, hp, Nat.zero_le 7, rfl, hc⟩ hd, hidle]

theorem encode_nop : encode .nop = List.replicate 8 0#8 := rfl

/-- 8 zero bytes are the header of NOP. -/
theorem step_of_zeroHeader {s : State} {rest : List Byte} (hr : s.resetIn = false) (hp : s.parser = .idle)
    (hc : s.cmd = List.replicate 8 0#8 ++ rest) : step s = .next (s.setCmd rest) := by
  rw [← encode_nop] at hc
  rw [step_of_encode hr hp hc, exec_nop]

/-- Settles O12: by induction on the number of headers, each step takes one and stands at a packet boundary again. -/
theorem zeroBytesAreNops : Obligations.ZeroBytesAreNops := by
  refine ⟨exec_nop, fun n s rest hr hp hc => ?_⟩
  induction n generalizing s with
  | zero =>
    rw [Nat.mul_zero, List.replicate_zero, List.nil_append] at hc
    rw [steps, ← hc]
    rfl
  | succ n ih =>
    have hhead : s.cmd = List.replicate 8 0#8 ++ (List.replicate (8 * n) 0#8 ++ rest) := by
      rw [hc, ← List.append_assoc, List.replicate_append_replicate, Nat.mul_succ, Nat.add_comm]
    rw [steps, step_of_zeroHeader hr hp hhead]
    exact ih (s.setCmd (List.replicate (8 * n) 0#8 ++ rest)) hr hp rfl

/-! ## GETSTATUS and CLRERR (R261, R262) -/

theorem exec_getStatus (s : State) :
    exec .getStatus s = .next (s.respond [s.status, byteOf s.curCol, byteOf s.curRow]) := rfl

theorem exec_clrErr (s : State) : exec .clrErr s = .next s.clearError := rfl

/-- A value below 256 goes over the response stream whole. -/
theorem toNat_byteOf {n : Nat} (h : n < 256) : (byteOf n).toNat = n := by
  rw [byteOf, BitVec.toNat_ofNat, Nat.mod_eq_of_lt h]

/-- Settles O21: a column and a row in their ranges fit a byte. -/
theorem getStatusReports : Obligations.GetStatusReports := by
  intro s hcol hrow
  refine ⟨byteOf s.curCol, byteOf s.curRow, toNat_byteOf (by omega), toNat_byteOf (by omega), ?_⟩
  rw [exec_getStatus, State.respond]

/-- Settles O22: `statusClear` is the byte R262 writes. -/
theorem clrErrClearsStatus : Obligations.ClrErrClearsStatus := by
  intro s
  rw [exec_clrErr, State.clearError, statusClear]

end Sys2Proof.Proofs
end

section
/-!
Proofs of the exceptions family: no step stops the command stream, and raising an error records the first one only.
-/

namespace Sys2Proof.Proofs

open Sys2Proof.Machine Sys2Proof.Claims

/-! ## Every step answers a next state (R280, R285) -/

/-- Every command completes or holds; none faults and none is refused. -/
theorem exec_next (i : Instr) (s : State) : ∃ t, exec i s = .next t := by
  cases i with
  | flush =>
    obtain ⟨ps, pl, ri, pn, cs, p, heq, -⟩ := execFlush_writes s
    exact ⟨_, heq⟩
  | drawLarge code =>
    obtain ⟨v, x, y, b, m, heq, -⟩ := execDrawLarge_writes code s
    exact ⟨_, heq⟩
  | eeRead a =>
    obtain ⟨t, heq, -⟩ := execEeRead_frame a s
    exact ⟨t, heq⟩
  | _ => exact ⟨_, rfl⟩

/-- Every command word is run or its packet rejected (R87 to R89). -/
theorem runWord_next (cw : CmdWord) (s : State) : ∃ t, runWord cw s = .next t := by
  unfold runWord
  split
  · exact exec_next ..
  · exact ⟨_, rfl⟩
  · exact ⟨_, rfl⟩

/-- A header is waited for (R60) or its word is run. -/
theorem fetchAndRun_next (got : List Byte) (s : State) : ∃ t, fetchAndRun got s = .next t := by
  unfold fetchAndRun
  split
  · exact ⟨_, rfl⟩
  · exact runWord_next ..

/-- The one thing that stops a step is a parser value that R27 does not have. -/
theorem safe_of_parserOk {s : State} (hok : parserOk s.parser = true) : Safe s := by
  obtain ⟨-, hs⟩ | ⟨-, hbad, -⟩ | ⟨-, -, hs⟩ | ⟨got, -, -, -, hs⟩ | ⟨cw, p, -, -, -, hs⟩ := step_cases s
  · exact ⟨_, hs⟩
  · rw [hok] at hbad; cases hbad
  · exact (fetchAndRun_next [] s).imp fun _ ht => hs.trans ht
  · exact (fetchAndRun_next got s).imp fun _ ht => hs.trans ht
  · exact ⟨_, hs⟩

/-- Settles O15: of the invariant only the parser's part is needed. -/
theorem invariantStatesStep : Obligations.InvariantStatesStep := fun _ hs => safe_of_parserOk hs.parser

/-! ## Raising an error (R281, R282) -/

theorem raise_of_err {e : CmdError} {s : State} (h : statusErr s.status = true) : s.raise e = s := by
  rw [State.raise, statusRaise_of_err h]
  rfl

/-- The numbers of R282 are the codes of the model. -/
theorem errorCode_of_mem {e : CmdError} {code : BitVec 4}
    (h : (e, code) ∈ [(.illegalOpcode, 1#4), (.reservedBits, 2#4), (.badGlyph, 3#4)]) : errorCode e = code := by
  simp only [List.mem_cons, List.not_mem_nil, or_false, Prod.mk.injEq] at h
  obtain ⟨rfl, rfl⟩ | ⟨rfl, rfl⟩ | ⟨rfl, rfl⟩ := h <;> rfl

/-- Settles O20: with `ERR` 1 the state is kept; with `ERR` 0 the fields of `STATUS` are those of the first error. -/
theorem raiseRecordsFirstError : Obligations.RaiseRecordsFirstError := by
  intro e code s hcode
  refine ⟨by rw [State.raise_status, State.raise], raise_of_err, fun hclear => ?_⟩
  rw [State.raise_status, ← errorCode_of_mem hcode]
  exact statusRaise_of_clear hclear

end Sys2Proof.Proofs
end

section
/-!
Proofs of the RESET family: what RESET leaves, and a command that RESET cuts between two of its port events, a write
transaction or a frame that is not finished.
-/

namespace Sys2Proof.Proofs

open Sys2Proof.Machine Sys2Proof.Claims

/-! ## The state after RESET (R35, R310, R311) -/

/-- Settles O14: every register has its reset value, and the device was never written. -/
theorem resetMeetsInvariant : Obligations.ResetMeetsInvariant where
  col := Nat.zero_le _
  row := Nat.zero_le _
  status := by decide
  parser := rfl
  memory := Memory.wf_nil _
  bus _ := rfl
  select _ := rfl
  mark := nofun

theorem step_of_resetIn {s : State} (hr : s.resetIn = true) : step s = .next s.takeReset := by
  rw [step, if_pos hr]

/-- RESET keeps every byte of the device but the one whose write transaction it finds open. -/
theorem eeByte_takeReset {s : State} {b : Addr} (h : ∀ d n, s.bus ≠ .writing b d n) :
    s.takeReset.eeByte b = s.eeByte b := by
  rw [State.eeByte, State.takeReset_params, State.takeReset_ee, State.eeAfterReset]
  cases hbus : s.bus with
  | idle | reading => rfl
  | writing a d n =>
    have hne : b.toNat ≠ a.toNat := fun heq => h d n (BitVec.eq_of_toNat_eq heq ▸ hbus)
    exact Memory.read_write_other _ _ hne _

/-- Settles O23: the next state is `takeReset`. -/
theorem resetServed : Obligations.ResetServed := fun s hr =>
  ⟨s.takeReset, step_of_resetIn hr, rfl, rfl, rfl, rfl, rfl, rfl, rfl, rfl, rfl, rfl, rfl, rfl,
    fun _ h => eeByte_takeReset h⟩

/-! ## A write transaction that RESET cuts (R312) -/

/-- The state in which RESET cuts the write transaction of `d` at `a` after `m` of its events. -/
def cutWrite (a : Addr) (d : Byte) (m : Nat) (s : State) : State :=
  (((s.logPorts ((writeEvents s.params a d).take m)).setPortPlan .free).setResetIn true).setBus
    (if m = 0 then .idle else .writing a d m)

/-- RESET keeps every byte but the one of the cut transaction, and that one too if no event of it came. -/
theorem eeByte_takeReset_cutWrite {a b : Addr} {m : Nat} (h : b ≠ a ∨ m = 0) (cw : CmdWord) (d : Byte) (s : State) :
    ((cutWrite a d m s).hold cw .port).takeReset.eeByte b = s.eeByte b := by
  refine eeByte_takeReset (s := (cutWrite a d m s).hold cw .port) fun d' n hbus => ?_
  change (if m = 0 then BusPosition.idle else .writing a d m) = .writing b d' n at hbus
  split at hbus
  · cases hbus
  · next hm =>
    obtain ⟨rfl, -, -⟩ := BusPosition.writing.inj hbus
    exact h.elim (· rfl) hm

/-- After a run of whole write transactions RESET cuts the next one. -/
theorem eeWrite_cut_of_writeRun {s : State} {m : Nat} {bs : List Byte} (hb : s.busEnabled = true) (hm : m < 7)
    (hp : s.portPlan = .resetAfter (7 * bs.length + m)) (a a' : Addr) (d : Byte) (c : List Byte) :
    ((writeRun a bs s).setCmd c).eeWrite a' d = (cutWrite a' d m ((writeRun a bs s).setCmd c), false) := by
  have hplan : ((writeRun a bs s).setCmd c).portPlan = .resetAfter m := by
    rw [writeRun_frame, hp, planAfter, Nat.add_sub_cancel_left]
    rfl
  have hen : ((writeRun a bs s).setCmd c).busEnabled = true := by
    rw [writeRun_frame]
    exact hb
  exact (eeWrite_resetAfter hplan hen a' d).2 hm

theorem letsPass_of_resetAfter {p : PortPlan} {m n : Nat} (h : p = .resetAfter m) (hn : n ≤ m) : letsPass n p := by
  rw [h]; exact hn

/-! ## A command that RESET cuts while it writes (R310 to R312) -/

/-- The command wrote the bytes `bs` from `a` on when RESET came, after `m` events of its next transaction: those
bytes are stored, the byte of that transaction may be anything, and the FBC is idle. -/
def CutAfterWrites (i : Instr) (s : State) (a : Addr) (bs : List Byte) (m : Nat) : Prop :=
  ∃ t u, exec i s = .next t ∧ step t = .next u ∧ u.parser = .idle ∧ u.bus = .idle ∧ u.portPlan = .free ∧
    u.cmd = [] ∧ u.rsp = [] ∧ (∀ j b, bs[j]? = some b → u.eeByte (addrAfter a j) = b) ∧
    ∀ b, (∀ j, j < bs.length → b ≠ addrAfter a j) → b ≠ addrAfter a bs.length ∨ m = 0 → u.eeByte b = s.eeByte b

/-- The command stops at the write transaction after those of `bs` if that one does not complete; `c` is what is left
of the command stream then. -/
def StopsAfterWrites (i : Instr) (s : State) (a : Addr) (bs : List Byte) : Prop :=
  ∃ d c, ∀ t, ((writeRun a bs s).setCmd c).eeWrite (addrAfter a bs.length) d = (t, false) →
    exec i s = .next (t.hold (encodeWord i) .port)

/-- The cut address is none of those written before: fewer than 2^16 transactions do not come round to it. -/
theorem StopsAfterWrites.cutAfterWrites {i : Instr} {s : State} {a : Addr} {bs : List Byte} {m : Nat}
    (h : StopsAfterWrites i s a bs) (hb : s.busEnabled = true) (hd : s.device = .present)
    (hw : Memory.wf s.params.eeErased s.ee = true) (hm : m < 7)
    (hp : s.portPlan = .resetAfter (7 * bs.length + m)) (hl : bs.length < 65536) : CutAfterWrites i s a bs m := by
  obtain ⟨d, c, hexec⟩ := h
  obtain ⟨hstored, hother⟩ := storesAt_writeRun (a := a) hd hl.le hw
  refine ⟨_, _, hexec _ (eeWrite_cut_of_writeRun hb hm hp a _ d c), step_of_resetIn rfl, rfl, rfl, rfl, rfl, rfl,
    fun j b hj => ?_, fun b hout hcut => ?_⟩
  · obtain ⟨hjl, -⟩ := List.getElem?_eq_some_iff.mp hj
    have hne : addrAfter a j ≠ addrAfter a bs.length := fun h => hjl.ne (addrAfter_inj (hjl.trans hl) hl h)
    exact (eeByte_takeReset_cutWrite (.inl hne) _ d _).trans (hstored j b hj)
  · exact (eeByte_takeReset_cutWrite hcut _ d _).trans (hother b hout)

/-- The one transaction of EE_WRITE is its first. -/
theorem eeWrite_stopsAfterWrites (s : State) (a : Addr) (d : Byte) : StopsAfterWrites (.eeWrite a d) s a [] := by
  refine ⟨d, s.cmd, fun t ht => ?_⟩
  rw [writeRun_setCmd_self, List.length_nil, addrAfter_zero] at ht
  change execEeWrite a d s = _
  rw [execEeWrite, eeWriteLast, show s.eeWrite a d = (t, false) from ht]

theorem eeZero_stopsAfterWrites {s : State} {first limit : Addr} {k : Nat} (hb : s.busEnabled = true)
    (h : letsPass (7 * k) s.portPlan) (hk : first.toNat + k < limit.toNat) :
    StopsAfterWrites (.eeZero first limit) s first (List.replicate k 0x00#8) := by
  have hwithin : k < rangeLength first limit := by rw [rangeLength]; omega
  obtain ⟨left, hleft⟩ := Nat.exists_eq_add_of_lt hwithin
  refine ⟨0x00#8, s.cmd, fun t ht => ?_⟩
  rw [writeRun_setCmd_self, List.length_replicate] at ht
  change execEeZero first limit s = _
  rw [execEeZero, hleft, Nat.add_assoc, eeZeroFrom_run hb h, eeZeroFrom, ht]

/-! ### EE_WRITESTR -/

/-- EE_WRITESTR stopped at byte `k` of its text. -/
theorem eeWriteStr_stopsAfterWrites_of_text {s : State} {a len : Addr} {k : Nat} (hb : s.busEnabled = true)
    (h : letsPass (7 * k) s.portPlan) (hk : k < (textOf len s).length) :
    StopsAfterWrites (.eeWriteStr a len) s a ((textOf len s).take k) := by
  have htext := length_textOf_le len s
  have h0 : 0x00#8 ∉ textOf len s := zero_notMem_takeWhile _
  have hdone : ((textOf len s).take k).length = k := List.length_take_of_le hk.le
  obtain ⟨rest, hcmd⟩ := exists_cmd_eq_textOf_append len s
  have hsplit : s.cmd = (textOf len s).take k ++ (textOf len s)[k] :: ((textOf len s).drop (k + 1) ++ rest) := by
    rw [← List.cons_append, ← List.drop_eq_getElem_cons hk, ← List.append_assoc, List.take_append_drop, hcmd]
  obtain ⟨left, hleft⟩ := Nat.exists_eq_add_of_lt (hk.trans_le htext)
  refine ⟨(textOf len s)[k], (textOf len s).drop (k + 1) ++ rest, fun t ht => ?_⟩
  have hrun := eeWriteStrFrom_text hb (by rwa [hdone]) (fun hmem => h0 (List.mem_of_mem_take hmem)) hsplit
    (encodeWord (.eeWriteStr a len)) (left + 1) a
  rw [eeWriteStrFrom_of_cut (s := State.setCmd _ _) rfl (fun heq => h0 (heq ▸ List.getElem_mem hk)) ht, hdone,
    ← Nat.add_assoc, ← hleft] at hrun
  exact congrArg Host.Outcome.next hrun

/-- EE_WRITESTR with its whole payload there, stopped at its terminator. -/
theorem eeWriteStr_stopsAfterWrites_of_terminator {s : State} {a len : Addr} (hb : s.busEnabled = true)
    (h : letsPass (7 * (textOf len s).length) s.portPlan) (hpayload : len.toNat ≤ s.cmd.length) :
    StopsAfterWrites (.eeWriteStr a len) s a (textOf len s) := by
  have hall : (s.cmd.take len.toNat).length = len.toNat := List.length_take_of_le hpayload
  obtain ⟨stopped, hrun⟩ := eeWriteStrFrom_payload_of_letsPass hb h (List.take_append_drop len.toNat s.cmd).symm
    (encodeWord (.eeWriteStr a len)) 0 a
  refine ⟨0x00#8, s.cmd.drop len.toNat, fun t ht => ?_⟩
  rw [hall, ← textOf, eeWriteStrFrom, eeWriteLast, ht] at hrun
  exact congrArg Host.Outcome.next hrun

/-- The transaction an event belongs to is that of a byte of the text, or, with the payload there, of the
terminator. -/
theorem eeWriteStr_transaction_of_drivesEvent {s : State} {a len : Addr} {k m : Nat}
    (h : drivesEvent s (7 * k + m) (.eeWriteStr a len)) :
    k < (textOf len s).length ∨ (k = (textOf len s).length ∧ len.toNat ≤ s.cmd.length) := by
  obtain htext | ⟨hpayload, hlast⟩ := h <;> omega

theorem eeWriteStr_stopsAfterWrites {s : State} {a len : Addr} {k m : Nat} (hb : s.busEnabled = true)
    (h : letsPass (7 * k) s.portPlan) (hdrives : drivesEvent s (7 * k + m) (.eeWriteStr a len)) :
    StopsAfterWrites (.eeWriteStr a len) s a ((textOf len s).take k) := by
  obtain hk | ⟨rfl, hpayload⟩ := eeWriteStr_transaction_of_drivesEvent hdrives
  · exact eeWriteStr_stopsAfterWrites_of_text hb h hk
  · rw [List.take_length]
    exact eeWriteStr_stopsAfterWrites_of_terminator hb h hpayload

/-! ### EE_ZERO, EE_WRITE and EE_WRITESTR cut by RESET -/

/-- Settles O58: the whole transactions wrote `k` zeros, at addresses that do not wrap. -/
theorem resetCutsEeZero : Obligations.ResetCutsEeZero := by
  intro s first limit k m hb hd hw hm hk hp
  have hlt := limit.isLt
  have hlen : (List.replicate k 0x00#8).length = k := List.length_replicate
  have hpass : letsPass (7 * k) s.portPlan := letsPass_of_resetAfter hp (Nat.le_add_right ..)
  obtain ⟨t, u, hexec, hstep, hparser, hbus, hplan, -, hrsp, hstored, hother⟩ :=
    (eeZero_stopsAfterWrites hb hpass hk).cutAfterWrites hb hd hw hm (by rwa [hlen]) (by omega)
  rw [hlen] at hother
  refine ⟨t, u, hexec, hstep, hparser, hbus, hplan, hrsp, fun b => ⟨fun hin => ?_, fun hout => ?_⟩⟩
  · have hbyte := hstored (b.toNat - first.toNat) 0x00#8 (by rw [List.getElem?_replicate, if_pos (by omega)])
    rwa [addrAfter_sub hin.1] at hbyte
  · have haddr : ∀ j, j ≤ k → (addrAfter first j).toNat = first.toNat + j :=
      fun j hj => toNat_addrAfter (by omega)
    refine hother b (fun j hj hbj => ?_) (or_iff_not_imp_right.mpr fun hm0 hbk => ?_)
    · have hnat := hbj ▸ haddr j hj.le
      omega
    · have hnat := hbk ▸ haddr k le_rfl
      omega

/-- Settles O59: an EE_WRITE has no whole transaction before the cut, an EE_WRITESTR has those of the first `k` bytes
of its text. -/
theorem resetCutsEeWriteAndEeWriteStr : Obligations.ResetCutsEeWriteAndEeWriteStr := by
  refine fun s a hb hd hw => ⟨fun d m hm hp => ?_, fun len k m hm hdrives hp => ?_⟩
  · obtain ⟨t, u, hexec, hstep, hparser, hbus, hplan, hcmd, hrsp, -, hother⟩ :=
      (eeWrite_stopsAfterWrites s a d).cutAfterWrites hb hd hw hm (hp.trans (by simp)) (Nat.succ_pos _)
    rw [List.length_nil, addrAfter_zero] at hother
    exact ⟨t, u, hexec, hstep, hparser, hbus, hplan, hcmd, hrsp, fun b => hother b (fun _ hj => nomatch hj)⟩
  · have hk : k ≤ (textOf len s).length :=
      (eeWriteStr_transaction_of_drivesEvent hdrives).elim Nat.le_of_lt (·.1.le)
    have hlt := len.isLt
    have htext := length_textOf_le len s
    have hlen : ((textOf len s).take k).length = k := List.length_take_of_le hk
    have hpass : letsPass (7 * k) s.portPlan := letsPass_of_resetAfter hp (Nat.le_add_right ..)
    obtain ⟨t, u, hexec, hstep, hparser, hbus, hplan, hcmd, hrsp, hstored, hother⟩ :=
      (eeWriteStr_stopsAfterWrites hb hpass hdrives).cutAfterWrites hb hd hw hm (by rwa [hlen]) (by omega)
    rw [hlen] at hother
    refine ⟨t, u, hexec, hstep, hparser, hbus, hplan, hcmd, hrsp, fun j b hj hbyte => hstored j b ?_, hother⟩
    rwa [List.getElem?_append_left (hj.trans_le hk), ← List.getElem?_take_of_lt hj] at hbyte

/-! ## A frame that RESET cuts (R115, R116) -/

@[simp] theorem length_flushEvents (v : Vram) : (flushEvents v).length = 506 := by
  simp [flushEvents]

/-- RESET before event `n` of the frame: the events before it are recorded. -/
theorem drive_flushEvents_cut {s : State} {n : Nat} (hp : s.portPlan = .resetAfter n) (hn : n < 506) :
    s.drive .panelLink (flushEvents s.vram) =
      (((s.logPorts ((flushEvents s.vram).take n)).setPortPlan .free).setResetIn true, some n) := by
  have hlen : ¬(flushEvents s.vram).length ≤ n := by rw [length_flushEvents]; omega
  simp only [drive_panelLink, State.driveEnabled, hp, if_neg hlen]

theorem ite_setPanel (p : Prop) [Decidable p] (v : Vram) (s : State) :
    (if p then s.setPanel v else s) = { s with panel := if p then some v else s.panel } := by
  split <;> rfl

/-- FLUSH stopped by RESET after `n` events: the panel has the new image only with all 504 bytes sent (entry 23). -/
theorem exec_flush_cut {s : State} {n : Nat} (hp : s.portPlan = .resetAfter n) (hn : n < 506) :
    exec .flush s = .next { s with
      parser := .exec (encodeWord .flush) .port, chipSelect := decide (0 < n),
      ports := s.ports ++ (flushEvents s.vram).take n,
      panel := if n = 505 then some s.vram else s.panel, portPlan := .free, resetIn := true } := by
  change execFlush s = _
  have hlast : 505 ≤ n ↔ n = 505 := by omega
  rw [execFlush, drive_flushEvents_cut hp hn]
  simp only [hlast, ite_setPanel]
  rfl

/-- Settles O60: FLUSH stops after `n` events, and RESET is served next. -/
theorem resetCutsFlush : Obligations.ResetCutsFlush := fun s _ hp hn =>
  ⟨vramBytes s.vram, _, _, length_vramBytes _, fun _ hk => getElem?_vramBytes _ hk, exec_flush_cut hp hn, rfl,
    step_of_resetIn rfl, rfl, rfl, rfl, rfl, rfl, rfl⟩

end Sys2Proof.Proofs
end
